-- ==== Sys2Proof/Word.lean ====
section
/-! DEFINITION. The word and address types of the part (R1). -/

namespace Sys2Proof

/-- A bus word: 16 bits, no byte lanes (R1). -/
abbrev Word := BitVec 16

/-- A word address: 24 bits (R1). -/
abbrev Addr := BitVec 24

/-- A traffic class, 0 to 7 (R13). -/
abbrev Cls := BitVec 3

/-- A completion status, 0 to 15 (R14). -/
abbrev Status := BitVec 4

end Sys2Proof
end

