-- ==== Sys2Proof/Syntax.lean ====
section
/-! DEFINITION. The commands of the block: one constructor of Instr for each row of spec/opcode_table.json.
The table gives the rows no operands; what each constructor carries is the model's reading (log 1). -/

namespace Sys2Proof

/-- A path: a terminal with its two path rings (00_scope, Terms). -/
inductive Path where
  | fibre
  | radio
deriving DecidableEq, Repr

/-- The initiator tag of a near cycle, codes 0 to 3 (R17). -/
inductive Tag where
  | supervisor
  | user
  | fibreTerm
  | radioTerm
deriving DecidableEq, Repr

/-- The direction of a cycle. -/
inductive Dir where
  | read
  | write
deriving DecidableEq, Repr

/-- The two activity flags of the switch controller (R118). -/
inductive Activity where
  | voice
  | emergency
deriving DecidableEq, Repr

/-- The two usage caps (R148). -/
inductive Cap where
  | soft
  | hard
deriving DecidableEq, Repr

/-- The two fault records (R191). -/
inductive RecordSel where
  | first
  | last
deriving DecidableEq, Repr

/-- The eight words of a slot (R7). -/
structure Descriptor where
  w0 : Word
  w1 : Word
  w2 : Word
  w3 : Word
  w4 : Word
  w5 : Word
  w6 : Word
  w7 : Word
deriving DecidableEq, Repr

/-- A command to the block. -/
inductive Instr where
  /-- RESET_ASSERT: RSTN goes low (R171). -/
  | resetAssert
  /-- RESET_RELEASE: RSTN rises (R187). -/
  | resetRelease
  /-- SETTLE_END: the start-up settle ends (R186). -/
  | settleEnd
  /-- NEAR_CYCLE_BEGIN: address valid with SEL low, with the levels of A, RW, BRST, ITAG, CFGN, MSETN (R156). -/
  | nearCycleBegin (addr : Addr) (dir : Dir) (burst : Bool) (tag : Tag) (cfgn msetn : Bool)
  /-- NEAR_WORD_GRANT: the word the near cycle presents reaches the far port (R159). `data` is the word the
  initiator drives for a write and the word memory returns for a read; `fhold` is the level of FHOLD (log 7). -/
  | nearWordGrant (data : Word) (fhold : Bool)
  /-- SEL_RISE: SEL rises (R158). -/
  | selRise
  /-- SETTING_WRITE: a setting write cycle to an item with no behaviour of its own (R177). -/
  | settingWrite (tag : Tag) (addr : Addr) (value : Word)
  /-- SETTING_BURST: a burst made with CFGN low (R174). -/
  | settingBurst (tag : Tag) (addr : Addr) (dir : Dir)
  /-- STANDBY_POLICY_SETTING: a write of RADIO item 0 (R112). -/
  | standbyPolicySetting (tag : Tag) (index : BitVec 8) (value : Word)
  /-- CAP_SETTING: a write of METERING item 0 or 1 (R148). -/
  | capSetting (cap : Cap) (tag : Tag) (index : BitVec 8) (value : Word)
  /-- POOL_CEILING_SETTING: a write of METERING item 5 (R154). -/
  | poolCeilingSetting (tag : Tag) (index : BitVec 8) (value : Word)
  /-- METER_PRESET: a write of METERING item 6 at an index (R146). -/
  | meterPreset (tag : Tag) (index : BitVec 8) (value : Word)
  /-- METER_SNAPSHOT_READ: a read of METER READS item 0, index 0 (R143). -/
  | meterSnapshotRead (tag : Tag)
  /-- SUMMARY_LATCH_READ: a read of METER READS item 1, index 0 (R144). -/
  | summaryLatchRead (tag : Tag)
  /-- UPTIME_LATCH_READ: a read of STATUS item 12, index 0 (R183). -/
  | uptimeLatchRead (tag : Tag)
  /-- FAULT_RECORD_LATCH_READ: a read of FAULT READS item 0 or 1, index 0 (R185). -/
  | faultRecordLatchRead (sel : RecordSel) (tag : Tag)
  /-- ALERT_PENDING_READ: a read of STATUS item 7 (R184). -/
  | alertPendingRead (tag : Tag) (index : BitVec 8)
  /-- START: a write of COMMAND item 0 (R188). -/
  | start (tag : Tag) (index : BitVec 8) (value : Word)
  /-- HALT: a write of COMMAND item 1 (R189). -/
  | halt (tag : Tag) (index : BitVec 8) (value : Word)
  /-- RECONFIGURE: a write of COMMAND item 2 (R190). -/
  | reconfigure (tag : Tag) (index : BitVec 8) (value : Word)
  /-- FORCE_PATH: a write of COMMAND item 3 (R126). -/
  | forcePath (tag : Tag) (index : BitVec 8) (value : Word)
  /-- FAILBACK_NOW: a write of COMMAND item 4 (R125). -/
  | failbackNow (tag : Tag) (index : BitVec 8) (value : Word)
  /-- FAILBACK_MODE: a write of COMMAND item 5 (R124). -/
  | failbackMode (tag : Tag) (index : BitVec 8) (value : Word)
  /-- RADIO_RESTART: a write of COMMAND item 6 (R111). -/
  | radioRestart (tag : Tag) (index : BitVec 8) (value : Word)
  /-- PERIOD_RESTART: a write of COMMAND item 7 (R145). -/
  | periodRestart (tag : Tag) (index : BitVec 8) (value : Word)
  /-- CLEAR_ALERTS: a write of COMMAND item 8 (R195). -/
  | clearAlerts (tag : Tag) (index : BitVec 8) (value : Word)
  /-- CLEAR_FAULTS: a write of COMMAND item 9 (R191). -/
  | clearFaults (tag : Tag) (index : BitVec 8) (value : Word)
  /-- ALERT_ENABLE: a write of COMMAND item 10 (R194). -/
  | alertEnable (tag : Tag) (index : BitVec 8) (value : Word)
  /-- FAR_GRANT: the free far port is granted to a requester (R165). -/
  | farGrant
  /-- FAR_HOLD_LIMIT: FHOLD holds the far word in transfer for 256 far clocks (R167). -/
  | farHoldLimit
  /-- PLACEMENT_READ_COMPLETE: the placement read returns eight words (R49). -/
  | placementReadComplete (words : Descriptor)
  /-- PUBLICATION: the copy write completes (R59). -/
  | publication
  /-- WITHDRAWAL_WRITE_COMPLETE: the withdrawal write completes (R41). -/
  | withdrawalWriteComplete
  /-- MIRROR_WRITE_COMPLETE: the mirror write completes (R33). -/
  | mirrorWriteComplete
  /-- FINAL_WRITE_COMPLETE: the final write completes (R36). -/
  | finalWriteComplete
  /-- HEADER_WRITE_COMPLETE: a header word write completes (R16). -/
  | headerWriteComplete
  /-- START_READ_COMPLETE: a read of the START sequence returns a value (R188). -/
  | startReadComplete (value : Word)
  /-- START_WRITE_COMPLETE: a write of the START sequence completes (R188). -/
  | startWriteComplete
  /-- LINE_CHANGE: LOSN (for FIBRE) or RATT (for RADIO) moves to a level (R98). -/
  | lineChange (path : Path) (level : Bool)
  /-- CONFIRM_TIMER_EXPIRY: the confirm timer of a line reaches its confirm time (R98). -/
  | confirmTimerExpiry (path : Path)
  /-- HEARTBEAT_INTERVAL_END (R94). -/
  | heartbeatIntervalEnd
  /-- STALL_TIMER_EXPIRY: the stall timer of a path reaches the stall time (R99). -/
  | stallTimerExpiry (path : Path)
  /-- ATTACH_TIMER_EXPIRY (R108). -/
  | attachTimerExpiry
  /-- POWER_OFF_TIMER_EXPIRY (R109). -/
  | powerOffTimerExpiry
  /-- KEEP_TIMER_EXPIRY (R107). -/
  | keepTimerExpiry
  /-- FLAP_EXPIRY: the 1-minute tick (R104). -/
  | flapExpiry
  /-- DEFERRAL_EXPIRY: the 1-second tick (R68). -/
  | deferralExpiry
  /-- QUIET_TIMER_EXPIRY: a quiet timer reaches its quiet time (R118). -/
  | quietTimerExpiry (activity : Activity)
  /-- FAILBACK_WAIT_EXPIRY: the failback wait timer reaches the wait time (R123). -/
  | failbackWaitExpiry
  /-- MAINS_CHANGE: MAINS moves to a level (R147). -/
  | mainsChange (level : Bool)
  /-- MAINS_CONFIRM_EXPIRY: the mains confirm timer reaches the confirm time (R147). -/
  | mainsConfirmExpiry
  /-- CREDIT_REFILL: the refill timer reaches the refill period (R153). -/
  | creditRefill
  /-- REFUSED_SETTING_READ: a setting read that is refused (R176); a read that passes the guard and has no row of
  its own is answered by the same constructor (log 16). -/
  | refusedSettingRead (tag : Tag) (addr : Addr)
deriving DecidableEq, Repr

end Sys2Proof
end

