-- ==== Sys2Proof/Decode.lean ====
section
/-! DEFINITION. The command a table word spells. No row of spec/opcode_table.json gives bits ("n_rows_with_fixed": 0 in
98_reader.md), so no word spells a command. -/

namespace Sys2Proof

/-- The command that the table's bits spell: none, since no row gives bits. -/
def decodeTableWord (_nbits _w : Nat) : Option Instr := none

end Sys2Proof
end

