-- ==== Sys2Proof/Config.lean ====
section
/-! DEFINITION. The numbers the spec fixes for the part. The spec leaves no instruction result undefined, so there is
no free value here (INVENTORY.md, What the manual leaves open). -/

namespace Sys2Proof.Config

/-- REFCLK cycles in one millisecond: REFCLK is 1.024 MHz (R196). -/
def msCycles : Nat := 1024

/-- REFCLK cycles of the start-up settle (R186). -/
def settleCycles : Nat := 205

/-- Far clocks of FHOLD that make the far hold limit (R167). -/
def farHoldLimit : Nat := 256

/-- Bound of the near streak (R165). -/
def maxStreak : Nat := 4

/-- Bound of the deferral queue (R55, R63). -/
def maxDeferred : Nat := 64

/-- Bound of the arrival list (R81). -/
def maxArrivals : Nat := 32

/-- Bound of the flap list (R103). -/
def maxFlaps : Nat := 15

/-- Longest frame length that passes validation (R50). -/
def maxLength : Nat := 2047

/-- Identity word (R183). -/
def identity : Word := 0x2214

/-- Revision word (R183). -/
def revision : Word := 0x0001

end Sys2Proof.Config
end

