-- ==== Sys2Proof/Machine/Types.lean ====
section
/-! DEFINITION. The types of the block's state, one group for each of the part's units (00_scope.md, Block overview). -/

namespace Sys2Proof.Machine

/-- A timer: stopped (none) or running with its elapsed REFCLK cycles (R196). -/
abbrev Timer := Option Nat

/-- One value for each path. -/
structure PerPath (α : Type) where
  fibre : α
  radio : α
deriving DecidableEq, Repr

/-! ### Settings (R178, R179) -/

/-- Policy actions (R61). -/
inductive Action where
  | pass
  | defer
  | skip
deriving DecidableEq, Repr

/-- The policy of one class (R61, R62). -/
structure ClassPolicy where
  normal : Action
  soft : Action
  hard : Action
  battery : Action
  fibreLabel : Word
  radioLabel : Word
  metered : Bool
deriving DecidableEq, Repr

/-- BUS group (R157, R160): codes as recorded. -/
structure BusSettings where
  length : Nat
  order : Nat
  polarity : Nat
deriving DecidableEq, Repr

/-- A base setting and its set mark (R5). -/
structure BaseSetting where
  value : Word
  isSet : Bool
deriving DecidableEq, Repr

/-- Base and size code of a ring (R4, R5). -/
structure RingSetting where
  base : BaseSetting
  size : Nat
deriving DecidableEq, Repr

/-- GEOMETRY group (R178). -/
structure Geometry where
  svcTx : RingSetting
  svcRx : RingSetting
  header : BaseSetting
  tx : PerPath RingSetting
  rx : PerPath RingSetting
deriving DecidableEq, Repr

/-- TIMING group, items 0 to 15 in order (R179). -/
structure Timing where
  heartbeat : Nat
  silence : PerPath Nat
  confirm : PerPath Nat
  stall : Nat
  trial1 : Nat
  trial2 : Nat
  trial3 : Nat
  radioTrial : Nat
  deferralAge : Nat
  voiceQuiet : Nat
  emergencyQuiet : Nat
  failbackWait : Nat
  flapWindow : Nat
  flapLimit : Nat
deriving DecidableEq, Repr

/-- Standby policy (R112). -/
inductive Standby where
  | alwaysOn
  | onDemand
deriving DecidableEq, Repr

/-- RADIO group (R179). -/
structure RadioSettings where
  standby : Standby
  attach : Nat
  powerOff : Nat
  retry : Nat
  keep : Nat
  mainsConfirm : Nat
deriving DecidableEq, Repr

/-- METERING group (R179). -/
structure Metering where
  softCap : Nat
  hardCap : Nat
  unit : Nat
  amount : Nat
  period : Nat
  ceiling : Nat
deriving DecidableEq, Repr

/-- Every setting value the setting decoder holds. -/
structure Settings where
  bus : BusSettings
  geometry : Geometry
  policy : List ClassPolicy
  timing : Timing
  radio : RadioSettings
  metering : Metering
deriving DecidableEq, Repr

/-! ### Transmit slot map (R19, R20) -/

/-- The nine states of a service transmit entry (R20). -/
inductive TxState where
  | free
  | posted
  | placing
  | placed
  | fetched
  | withdrawing
  | deferred
  | done
  | skipped
deriving DecidableEq, Repr

/-- A service transmit entry; a field is none where R19 says it is not present. -/
structure TxEntry where
  state : TxState
  seq : Option Word
  cls : Option Cls
  len : Option Word
  path : Option Path
  pslot : Option Nat
  final : Option Status
  finalPending : Option Bool
deriving DecidableEq, Repr

/-- The transmit slot map (R19). -/
structure Tsm where
  entries : List TxEntry
  post : Word
  reclaim : Word
  seqCtr : Word
deriving DecidableEq, Repr

/-! ### Placement engine (R46) -/

/-- Kinds of operation (R46). -/
inductive OpKind where
  | placement
  | release
  | reDecision
deriving DecidableEq, Repr

/-- Phases of an operation (R46). -/
inductive OpPhase where
  | reading
  | waiting
  | copying
deriving DecidableEq, Repr

/-- The operation present (R46). -/
structure Operation where
  slot : Nat
  kind : OpKind
  phase : OpPhase
  target : Path
deriving DecidableEq, Repr

/-- A deferral record (R63). -/
structure DeferralRec where
  slot : Nat
  cls : Cls
  seq : Word
  time : BitVec 32
deriving DecidableEq, Repr

/-- A scan in progress (R65); position none is before the oldest record. -/
structure Scan where
  blocked : List Cls
  pos : Option Word
deriving DecidableEq, Repr

/-- The switch controller's claim on the engine (R46, R70). -/
inductive Claim where
  | none
  | pending
  | held
deriving DecidableEq, Repr

/-- A slot record of a path transmit ring (R71). -/
structure SlotRec where
  published : Bool
  mapped : Option Nat
  withdrawn : Bool
deriving DecidableEq, Repr

/-- A path ring slot table with its two records (R71). -/
structure TxRing where
  slots : List SlotRec
  producer : Word
  consumer : Word
deriving DecidableEq, Repr

/-- The placement engine (R46). -/
structure Ple where
  placementQ : List Nat
  deferralQ : List DeferralRec
  copyBuf : Descriptor
  op : Option Operation
  rexPending : Bool
  rescan : Bool
  scan : Option Scan
  claim : Claim
  rings : PerPath TxRing
deriving DecidableEq, Repr

/-! ### Receive merge unit (R75) -/

/-- A service receive entry (R76). -/
inductive RxEntry where
  | empty
  | filled (path : Path) (pslot : Nat)
deriving DecidableEq, Repr

/-- The three records of a path receive ring (R77). -/
structure RxRecs where
  producer : Word
  assigned : Word
  consumer : Word
deriving DecidableEq, Repr

/-- A batch record of the arrival list (R81). -/
structure Batch where
  path : Path
  count : Nat
deriving DecidableEq, Repr

/-- The receive merge unit (R75). -/
structure Rmu where
  entries : List RxEntry
  available : Word
  release : Word
  recs : PerPath RxRecs
  arrivals : List Batch
deriving DecidableEq, Repr

/-! ### Path monitor (R91, R105) -/

/-- Health states (R92). -/
inductive Health where
  | off
  | down
  | trial
  | up
  | failed
deriving DecidableEq, Repr

/-- Down causes (R91). -/
inductive DownCause where
  | none
  | stall
  | silence
  | light
  | detach
  | powerCycle
  | terminalIndex
deriving DecidableEq, Repr

/-- Line debounce states (R98); FALLING carries its confirm timer. -/
inductive LineState where
  | good
  | falling (elapsed : Nat)
  | bad
deriving DecidableEq, Repr

/-- A path record (R91). -/
structure PathRecord where
  health : Health
  grade : Nat
  cause : DownCause
  trial : Nat
  silence : Nat
  stall : Timer
  line : LineState
  mark : Bool
  downs : Nat
  trials : Nat
deriving DecidableEq, Repr

/-- Phases of the radio power sequencer (R105). -/
inductive PowerPhase where
  | standby
  | powered
  | cycling
  | failed
deriving DecidableEq, Repr

/-- The radio power sequencer (R105). -/
structure Sequencer where
  phase : PowerPhase
  attach : Timer
  off : Timer
  keep : Timer
  retry : Nat
deriving DecidableEq, Repr

/-- The path monitor. -/
structure Pmn where
  recs : PerPath PathRecord
  beat : Nat
  beatLen : Nat
  flaps : List (BitVec 32)
  power : Sequencer
deriving DecidableEq, Repr

/-! ### Switch controller (R114) -/

/-- Switch states (R114). -/
inductive SwitchState where
  | steady
  | waiting
  | migrating
deriving DecidableEq, Repr

/-- Migration kinds (R114). -/
inductive MigrationKind where
  | failover
  | arrival
  | failback
  | forced
deriving DecidableEq, Repr

/-- An item of the migration list (R114, R128). -/
structure MigrationItem where
  slot : Nat
  seq : Word
deriving DecidableEq, Repr

/-- Failback modes (R124). -/
inductive FailbackMode where
  | auto
  | manual
deriving DecidableEq, Repr

/-- An activity flag with its quiet timer (R118). -/
structure ActivityFlag where
  flag : Bool
  timer : Timer
deriving DecidableEq, Repr

/-- The switch controller (R114). A path of none is NONE; the target is absent outside MIGRATING. -/
structure Swc where
  service : Option Path
  state : SwitchState
  target : Option (Option Path)
  kind : Option MigrationKind
  list : List MigrationItem
  step : Option Nat
  force : Option Path
  mode : FailbackMode
  voice : ActivityFlag
  emergency : ActivityFlag
  wait : Timer
  expired : Bool
  failovers : Nat
  failbacks : Nat
deriving DecidableEq, Repr

/-! ### Usage meter (R140) -/

/-- Mains debounce states (R147); FALLING carries its confirm timer. -/
inductive MainsState where
  | present
  | falling (elapsed : Nat)
  | absent
deriving DecidableEq, Repr

/-- Regimes (R140). -/
inductive Regime where
  | normal
  | soft
  | hard
  | battery
deriving DecidableEq, Repr

/-- The usage meter (R140). The eight hold words are the four words of `holdTx` and of `holdRx` (R143). -/
structure Umt where
  tx : BitVec 64
  rx : BitVec 64
  holdTx : BitVec 64
  holdRx : BitVec 64
  latch : BitVec 32
  mains : MainsState
  regime : Regime
  pool : Nat
  refill : Nat
deriving DecidableEq, Repr

/-! ### Near-side interface (R156) -/

/-- The near cycle present: its latched fields, the position of the next word, the mark that it met the far hold
limit (R168), the slots that already raised LATE_WRITE in it (R27), and the data word that a write presents while it waits
(R159, R160). -/
structure NearCycle where
  addr : Addr
  dir : Dir
  burst : Bool
  tag : Tag
  cfgn : Bool
  msetn : Bool
  pos : Nat
  dead : Bool
  late : List Nat
  data : Option Word
deriving DecidableEq, Repr

/-- The near-side interface: no cycle is IDLE; `bus` is a cycle begun while RSTN is low (R171);
`dataOut` is the word the part last answered on D, kept until it answers the next (log 27). -/
structure Nsi where
  near : Option NearCycle
  bus : Option NearCycle
  dataOut : Word
deriving DecidableEq, Repr

/-! ### Far-side port (R162 to R171) -/

/-- The part's own far cycles (R163). -/
inductive AccessKind where
  | placementRead
  | copy
  | mirror
  | final
  | withdrawal
  | header
  | startRead
  | startWrite
deriving DecidableEq, Repr

/-- A far cycle of the part (R163, R164): its first address, its data words (none for a read), the service slot and
the path its fault record carries (R169), the header word it names, whether it is a reissue (R169), and whether
RECONFIGURE has cut it off from every table (R190). -/
structure Access where
  kind : AccessKind
  addr : Addr
  words : List Word
  slot : Option Nat
  path : Option Path
  hdr : Nat
  again : Bool
  void : Bool
deriving DecidableEq, Repr

/-- A near word whose far transfer has begun. -/
structure NearFlight where
  addr : Addr
  dir : Dir
  tag : Tag
deriving DecidableEq, Repr

/-- What the far port serves: nothing; a near run, with the address of its last word; a near word in transfer; such a word whose near cycle SEL has ended (R158); a far cycle of the part. -/
inductive FarPort where
  | free
  | nearRun (last : Addr)
  | nearHeld (word : NearFlight)
  | nearOrphan (word : NearFlight)
  | part (access : Access)
deriving DecidableEq, Repr

/-- The far-side lines as last driven: FA, FD, FRW (high: read), FMSETN. -/
structure FarPins where
  fa : Addr
  fd : Word
  frw : Bool
  fmsetn : Bool
deriving DecidableEq, Repr

/-- The far-side port (R164, R165, R167, R169). -/
structure Fsp where
  port : FarPort
  list : List Access
  copyReq : Option Access
  reissue : Option Access
  streak : Nat
  holdTimer : Nat
  pins : FarPins
deriving DecidableEq, Repr

/-! ### Faults, part control and the setting decoder's records -/

/-- Part states (R187). -/
inductive PartState where
  | config
  | starting
  | active
  | halted
deriving DecidableEq, Repr

/-- Fault classes (R191). -/
inductive FaultClass where
  | notice
  | path
  | transfer
  | integrity
deriving DecidableEq, Repr

/-- Fault causes (R185), in the order of their codes 1 to 18. -/
inductive FaultCause where
  | lateWrite
  | postOverrun
  | reclaimOverrun
  | releaseOverrun
  | guardedWrite
  | settingRefused
  | strayCompletion
  | invalidDescriptor
  | deferralFull
  | pathDown
  | terminalIndex
  | attachTimeout
  | radioFailed
  | flapLimit
  | noPath
  | farTimeout
  | farTimeoutRepeated
  | timeoutInSwitch
deriving DecidableEq, Repr

/-- A fault record (R191). -/
structure FaultRec where
  cls : FaultClass
  cause : FaultCause
  path : Option Path
  slot : Option Nat
  time : BitVec 32
deriving DecidableEq, Repr

/-- The four per-class counts (R191). -/
structure FaultCounts where
  notice : Nat
  path : Nat
  transfer : Nat
  integrity : Nat
deriving DecidableEq, Repr

/-- Alert causes (R184), in the order of their bits 0 to 6. -/
inductive Alert where
  | notice
  | path
  | transfer
  | integrity
  | switched
  | regime
  | failbackHeld
deriving DecidableEq, Repr

/-- The part control and fault unit (R187, R191, R194). Alert sets have the layout of R184. -/
structure Pcf where
  part : PartState
  first : Option FaultRec
  last : Option FaultRec
  counts : FaultCounts
  pending : BitVec 7
  mask : BitVec 7
deriving DecidableEq, Repr

/-- Refusal causes, codes 0 to 7 (R176). -/
inductive RefusalCause where
  | none
  | guard
  | unknown
  | busy
  | state
  | guarded
  | geometry
  | burst
deriving DecidableEq, Repr

/-- The refusal record (R176). -/
structure RefusalRec where
  cause : RefusalCause
  group : BitVec 4
  item : BitVec 4
  index : BitVec 8
  tag : Tag
  dir : Dir
deriving DecidableEq, Repr

/-- The setting decoder (R172). -/
structure Sdc where
  settings : Settings
  seen : BitVec 7
  refusal : RefusalRec
  firstHold : Option FaultRec
  lastHold : Option FaultRec
  uptimeHold : BitVec 32
deriving DecidableEq, Repr

/-! ### Clock and lines -/

/-- Uptime (R196): milliseconds, the REFCLK cycles within the millisecond, and the model's marks of a 1-second and a
1-minute tick that is due (log 4). -/
structure Clock where
  uptime : BitVec 32
  sub : Nat
  secDue : Bool
  minDue : Bool
deriving DecidableEq, Repr

/-- Levels of the three side lines (08, Signals). -/
structure Lines where
  losn : Bool
  ratt : Bool
  mains : Bool
deriving DecidableEq, Repr

end Sys2Proof.Machine
end

