-- ==== Sys2Proof/Machine/Defaults.lean ====
section
/-! DEFINITION. The value of each unit's state after power-on reset, as the spec gives it beside each item. -/

namespace Sys2Proof.Machine

/-- Slots of a service ring of a size code (R4). -/
def serviceSlots (code : Nat) : Nat := 32 * 2 ^ code

/-- Slots of a path ring of a size code (R4). -/
def pathSlots (code : Nat) : Nat := 16 * 2 ^ code

/-- The default policy of a class (R61, R62). -/
def defaultPolicy (c : Nat) : ClassPolicy :=
  match c with
  | 0 => ⟨.pass, .pass, .pass, .pass, 0x0000, 0x0001, false⟩
  | 1 => ⟨.pass, .pass, .pass, .pass, 0x0000, 0x0001, false⟩
  | 2 => ⟨.pass, .pass, .pass, .pass, 0x0000, 0x0001, false⟩
  | 3 => ⟨.pass, .pass, .pass, .pass, 0x0000, 0x0001, false⟩
  | 4 => ⟨.pass, .pass, .defer, .defer, 0x0000, 0x0002, true⟩
  | 5 => ⟨.pass, .defer, .defer, .skip, 0x0000, 0x0002, true⟩
  | 6 => ⟨.defer, .defer, .defer, .skip, 0x0000, 0x0002, true⟩
  | _ => ⟨.defer, .skip, .skip, .skip, 0x0000, 0x0002, true⟩

/-- An unset base (R5). -/
def defaultBase : BaseSetting := ⟨0, false⟩

/-- The defaults of every setting (R172, R178, R179). -/
def defaultSettings : Settings where
  bus := { length := 1, order := 0, polarity := 0 }
  geometry :=
    { svcTx := ⟨defaultBase, 1⟩
      svcRx := ⟨defaultBase, 1⟩
      header := defaultBase
      tx := ⟨⟨defaultBase, 2⟩, ⟨defaultBase, 2⟩⟩
      rx := ⟨⟨defaultBase, 2⟩, ⟨defaultBase, 2⟩⟩ }
  policy := [defaultPolicy 0, defaultPolicy 1, defaultPolicy 2, defaultPolicy 3,
    defaultPolicy 4, defaultPolicy 5, defaultPolicy 6, defaultPolicy 7]
  timing :=
    { heartbeat := 10, silence := ⟨10, 0⟩, confirm := ⟨50, 200⟩, stall := 30, trial1 := 5, trial2 := 10,
      trial3 := 30, radioTrial := 3, deferralAge := 60, voiceQuiet := 10, emergencyQuiet := 30,
      failbackWait := 20, flapWindow := 30, flapLimit := 4 }
  radio := { standby := .alwaysOn, attach := 90, powerOff := 5, retry := 3, keep := 10, mainsConfirm := 100 }
  metering := { softCap := 0, hardCap := 0, unit := 5, amount := 1600, period := 10, ceiling := 16000 }

/-- A FREE entry: every field but the state absent (R19, R42). -/
def freeEntry : TxEntry := ⟨.free, none, none, none, none, none, none, none⟩

/-- A clear slot record (R73). -/
def clearSlot : SlotRec := ⟨false, none, false⟩

/-- A descriptor of zeros (R46). -/
def zeroDescriptor : Descriptor := ⟨0, 0, 0, 0, 0, 0, 0, 0⟩

/-- The transmit slot map with all its entries FREE (R42, R45). -/
def emptyTsm (n : Nat) : Tsm := { entries := List.replicate n freeEntry, post := 0, reclaim := 0, seqCtr := 0 }

/-- A clear path ring slot table of n slots (R46, R73, R74). -/
def clearRing (n : Nat) : TxRing := { slots := List.replicate n clearSlot, producer := 0, consumer := 0 }

/-- The placement engine cleared, but for its copy buffer (R46, R73, R74). -/
def emptyPle (buf : Descriptor) (nFibre nRadio : Nat) : Ple :=
  { placementQ := [], deferralQ := [], copyBuf := buf, op := none, rexPending := false, rescan := false,
    scan := none, claim := .none, rings := ⟨clearRing nFibre, clearRing nRadio⟩ }

/-- The receive merge unit cleared (R75, R90). -/
def emptyRmu (n : Nat) : Rmu :=
  { entries := List.replicate n .empty, available := 0, release := 0, recs := ⟨⟨0, 0, 0⟩, ⟨0, 0, 0⟩⟩, arrivals := [] }

/-- A path record after power-on reset, with its health state and debounce state (R91). -/
def resetRecord (h : Health) (l : LineState) : PathRecord :=
  { health := h, grade := 3, cause := .none, trial := 0, silence := 0, stall := none, line := l, mark := false,
    downs := 0, trials := 0 }

/-- The debounce state a line takes when RSTN rises (R98). -/
def sampleLine (level : Bool) : LineState := if level then .good else .falling 0

/-- The mains debounce state taken when RSTN rises (R147). -/
def sampleMains (level : Bool) : MainsState := if level then .present else .falling 0

/-- The path monitor while RSTN is low: fibre DOWN, radio OFF, RPWR low (R91, R105). -/
def lowPmn : Pmn where
  recs := ⟨resetRecord .down .good, resetRecord .off .good⟩
  beat := 0
  beatLen := defaultSettings.timing.heartbeat
  flaps := []
  power := { phase := .standby, attach := none, off := none, keep := none, retry := 0 }

/-- The path monitor as RSTN rises: lines sampled, the interval timer started, the sequencer POWERED, the radio DOWN
and its attach timer started (R94, R98, R105). -/
def releasedPmn (l : Lines) : Pmn :=
  { lowPmn with
    recs := ⟨resetRecord .down (sampleLine l.losn), resetRecord .down (sampleLine l.ratt)⟩
    power := { phase := .powered, attach := some 0, off := none, keep := none, retry := 0 } }

/-- The switch controller after power-on reset (R114). -/
def resetSwc : Swc where
  service := none
  state := .steady
  target := none
  kind := none
  list := []
  step := none
  force := none
  mode := .auto
  voice := ⟨false, none⟩
  emergency := ⟨false, none⟩
  wait := none
  expired := false
  failovers := 0
  failbacks := 0

/-- The usage meter after power-on reset, with its mains debounce state (R140). -/
def resetUmt (m : MainsState) : Umt where
  tx := 0
  rx := 0
  holdTx := 0
  holdRx := 0
  latch := 0
  mains := m
  regime := .normal
  pool := defaultSettings.metering.ceiling
  refill := 0

/-- The near-side interface IDLE (R156, R171); the data lines by log 6. -/
def resetNsi : Nsi := { near := none, bus := none, dataOut := 0 }

/-- The far-side port after power-on reset (R171); FA, FD and FRW by log 6. -/
def resetFsp : Fsp where
  port := .free
  list := []
  copyReq := none
  reissue := none
  streak := 0
  holdTimer := 0
  pins := { fa := 0, fd := 0, frw := true, fmsetn := true }

/-- The empty refusal record (R176). -/
def emptyRefusal : RefusalRec := ⟨.none, 0, 0, 0, .supervisor, .read⟩

/-- The setting decoder after power-on reset (R172). -/
def resetSdc : Sdc where
  settings := defaultSettings
  seen := 0
  refusal := emptyRefusal
  firstHold := none
  lastHold := none
  uptimeHold := 0

/-- The part control and fault unit after power-on reset (R187, R191, R194). -/
def resetPcf : Pcf where
  part := .config
  first := none
  last := none
  counts := ⟨0, 0, 0, 0⟩
  pending := 0
  mask := 0x7F

/-- Uptime 0, no tick due (R196, log 4). -/
def resetClock : Clock := { uptime := 0, sub := 0, secDue := false, minDue := false }

/-- The side line levels of State.reset: light present, radio not attached, mains present (log 5). -/
def resetLines : Lines := { losn := true, ratt := false, mains := true }

end Sys2Proof.Machine
end

