-- ==== Sys2Proof/Machine/State.lean ====
section
/-! DEFINITION. The state of the block, the reasons a step can stop, and the state right after reset. -/

namespace Sys2Proof.Machine

/-- The whole state of the part, as plain data, with the queue of waiting commands. -/
structure State where
  pending : List Instr
  rstn : Bool
  settle : Timer
  lines : Lines
  clock : Clock
  nsi : Nsi
  tsm : Tsm
  ple : Ple
  rmu : Rmu
  pmn : Pmn
  swc : Swc
  umt : Umt
  fsp : Fsp
  sdc : Sdc
  pcf : Pcf
deriving DecidableEq, Repr

/-- No command of this block stops the machine: the spec's faults are records in State (R191), so there is no
constructor, and no claim can lean on a stop. Safe: nothing raises it. -/
inductive Fault where
deriving DecidableEq, Repr

/-- Reasons to refuse a command. -/
inductive Refusal where
  /-- Raised by exec's arm of a command that has no meaning yet, and by nothing else. Safe: the model stops. -/
  | notModelled (mnemonic : String)
deriving DecidableEq, Repr

/-- The part while RSTN is low, with the line levels outside it (R171): every register at its value after power-on
reset, RPWR low. -/
def State.lowReset (l : Lines) (queue : List Instr) : State where
  pending := queue
  rstn := false
  settle := none
  lines := l
  clock := resetClock
  nsi := resetNsi
  tsm := emptyTsm (serviceSlots defaultSettings.geometry.svcTx.size)
  ple := emptyPle zeroDescriptor (pathSlots defaultSettings.geometry.tx.fibre.size)
    (pathSlots defaultSettings.geometry.tx.radio.size)
  rmu := emptyRmu (serviceSlots defaultSettings.geometry.svcRx.size)
  pmn := lowPmn
  swc := resetSwc
  umt := resetUmt .present
  fsp := resetFsp
  sdc := resetSdc
  pcf := resetPcf

/-- The part as RSTN rises (R187, R98, R105, R147, R186): lines sampled, timers started, the sequencer POWERED, the
settle running. -/
def State.released (l : Lines) (queue : List Instr) : State :=
  { State.lowReset l queue with
    rstn := true
    settle := some 0
    pmn := releasedPmn l
    umt := resetUmt (sampleMains l.mains) }

/-- The machine right after reset: RSTN has just risen (log 5), with nothing queued. -/
def State.reset : State := State.released resetLines []

end Sys2Proof.Machine
end

