-- ==== Sys2Proof/Machine/Operands.lean ====
section
/-! DEFINITION. Fields of words and addresses, ring index arithmetic, region geometry and the setting address: every
operand form the spec gives. -/

namespace Sys2Proof.Machine

/-! ### Values for each path -/

/-- The value of a path. -/
def PerPath.get {α : Type} (v : PerPath α) : Path → α
  | .fibre => v.fibre
  | .radio => v.radio

/-- Replace the value of a path. -/
def PerPath.set {α : Type} (v : PerPath α) (p : Path) (a : α) : PerPath α :=
  match p with
  | .fibre => { v with fibre := a }
  | .radio => { v with radio := a }

/-- The other path. -/
def otherPath : Path → Path
  | .fibre => .radio
  | .radio => .fibre

/-! ### Initiator tags (R17) -/

/-- The tag's code. -/
def tagCode : Tag → Nat
  | .supervisor => 0
  | .user => 1
  | .fibreTerm => 2
  | .radioTerm => 3

/-- Tags 0 and 1 are controller tags. -/
def isController : Tag → Bool
  | .supervisor => true
  | .user => true
  | .fibreTerm => false
  | .radioTerm => false

/-- The path of a terminal's tag; a controller tag has none. -/
def tagPath : Tag → Option Path
  | .supervisor => none
  | .user => none
  | .fibreTerm => some .fibre
  | .radioTerm => some .radio

/-! ### Ring indices (R2, R3) -/

/-- Advance of a written value over a record; occupancy is the advance of the producer over the consumer (R3). -/
def advance (v r : Word) : Nat := (v - r).toNat

/-- x lies within the span from a to b (R3). -/
def inSpan (x a b : Word) : Bool := decide (advance x a ≤ advance b a)

/-- The slot an index names in a ring of n slots (R2). -/
def slotOf (i : Word) (n : Nat) : Nat := i.toNat % n

/-- Step a path's index n positions on (R2). -/
def stepIndex (i : Word) (n : Nat) : Word := i + BitVec.ofNat 16 n

/-! ### The control word w0 (R7) -/

/-- OWN, bit 15. -/
def w0Own (w : Word) : Bool := w.getLsbD 15

/-- CLASS, bits 13 to 11. -/
def w0Class (w : Word) : Cls := w.extractLsb' 11 3

/-- STATUS, bits 10 to 7. -/
def w0Status (w : Word) : Status := w.extractLsb' 7 4

/-- CARRIED, bits 6 to 0. -/
def w0Carried (w : Word) : BitVec 7 := w.extractLsb' 0 7

/-- A control word from its fields, OWN at the top (R7). -/
def composeW0 (own skip : Bool) (cls : Cls) (status : Status) (carried : BitVec 7) : Word :=
  BitVec.ofBool own ++ BitVec.ofBool skip ++ cls ++ status ++ carried

/-- The word a withdrawal writes (R9). -/
def withdrawalWord (cls : Cls) : Word := composeW0 true true cls 0 0

/-- The word of the part's own completion (R11). -/
def completionWord (cls : Cls) (status : Status) : Word := composeW0 false false cls status 0

/-- A terminal write of w0 that is a completion: OWN 0 and STATUS not 0 (R10). -/
def isCompletion (w : Word) : Bool := !w0Own w && decide (w0Status w ≠ 0)

/-- The copy composed from the words read, the cached class and the path label (R8, R58). -/
def composeCopy (d : Descriptor) (cls : Cls) (label : Word) : Descriptor :=
  { d with w0 := composeW0 true false cls 0 (w0Carried d.w0), w5 := label }

/-- The words of a descriptor in address order. -/
def descriptorWords (d : Descriptor) : List Word := [d.w0, d.w1, d.w2, d.w3, d.w4, d.w5, d.w6, d.w7]

/-! ### Geometry (R4, R5) -/

/-- First word address of a base: the value is address lines 23 to 8. -/
def BaseSetting.addr (b : BaseSetting) : Nat := b.value.toNat * 256

/-- The geometry in force. -/
def State.geo (s : State) : Geometry := s.sdc.settings.geometry

/-- Service transmit ring size in slots. -/
def State.svcTxSize (s : State) : Nat := serviceSlots s.geo.svcTx.size

/-- Service receive ring size in slots. -/
def State.svcRxSize (s : State) : Nat := serviceSlots s.geo.svcRx.size

/-- A path transmit ring's size in slots. -/
def State.txSize (s : State) (p : Path) : Nat := pathSlots (s.geo.tx.get p).size

/-- A path receive ring's size in slots. -/
def State.rxSize (s : State) (p : Path) : Nat := pathSlots (s.geo.rx.get p).size

/-- The address of word k of slot i of a region based at b (R2). -/
def slotAddr (b : BaseSetting) (i k : Nat) : Addr := BitVec.ofNat 24 (b.addr + 8 * i + k)

/-- Word k of service transmit slot i. -/
def State.svcTxAddr (s : State) (i k : Nat) : Addr := slotAddr s.geo.svcTx.base i k

/-- Word k of slot i of a path transmit ring. -/
def State.txAddr (s : State) (p : Path) (i k : Nat) : Addr := slotAddr (s.geo.tx.get p).base i k

/-- Word k of slot i of a path receive ring. -/
def State.rxAddr (s : State) (p : Path) (i k : Nat) : Addr := slotAddr (s.geo.rx.get p).base i k

/-- Header word w. -/
def State.headerAddr (s : State) (w : Nat) : Addr := BitVec.ofNat 24 (s.geo.header.addr + w)

/-- The region a word address falls in (R6): a slot and word of a ring, a header word, or ordinary memory. -/
inductive Region where
  | svcTx (slot k : Nat)
  | svcRx (slot k : Nat)
  | header (w : Nat)
  | tx (path : Path) (slot k : Nat)
  | rx (path : Path) (slot k : Nat)
  | ordinary
deriving DecidableEq, Repr

/-- An address inside n words from a base. -/
def inWords (a base n : Nat) : Bool := decide (base ≤ a) && decide (a < base + n)

/-- The region of an address under the geometry (R2, R5, R6). -/
def State.regionOf (s : State) (addr : Addr) : Region :=
  let a := addr.toNat
  let g := s.geo
  if inWords a g.svcTx.base.addr (8 * s.svcTxSize) then
    .svcTx ((a - g.svcTx.base.addr) / 8) ((a - g.svcTx.base.addr) % 8)
  else if inWords a g.svcRx.base.addr (8 * s.svcRxSize) then
    .svcRx ((a - g.svcRx.base.addr) / 8) ((a - g.svcRx.base.addr) % 8)
  else if inWords a g.header.addr 12 then .header (a - g.header.addr)
  else if inWords a g.tx.fibre.base.addr (8 * s.txSize .fibre) then
    .tx .fibre ((a - g.tx.fibre.base.addr) / 8) ((a - g.tx.fibre.base.addr) % 8)
  else if inWords a g.tx.radio.base.addr (8 * s.txSize .radio) then
    .tx .radio ((a - g.tx.radio.base.addr) / 8) ((a - g.tx.radio.base.addr) % 8)
  else if inWords a g.rx.fibre.base.addr (8 * s.rxSize .fibre) then
    .rx .fibre ((a - g.rx.fibre.base.addr) / 8) ((a - g.rx.fibre.base.addr) % 8)
  else if inWords a g.rx.radio.base.addr (8 * s.rxSize .radio) then
    .rx .radio ((a - g.rx.radio.base.addr) / 8) ((a - g.rx.radio.base.addr) % 8)
  else .ordinary

/-- The seven regions as (first word, number of words). -/
def Geometry.regions (g : Geometry) : List (Nat × Nat) :=
  [ (g.svcTx.base.addr, 8 * serviceSlots g.svcTx.size),
    (g.svcRx.base.addr, 8 * serviceSlots g.svcRx.size),
    (g.header.addr, 12),
    (g.tx.fibre.base.addr, 8 * pathSlots g.tx.fibre.size),
    (g.rx.fibre.base.addr, 8 * pathSlots g.rx.fibre.size),
    (g.tx.radio.base.addr, 8 * pathSlots g.tx.radio.size),
    (g.rx.radio.base.addr, 8 * pathSlots g.rx.radio.size) ]

/-- Every base is set (R5). -/
def Geometry.allSet (g : Geometry) : Bool :=
  g.svcTx.base.isSet && g.svcRx.base.isSet && g.header.isSet && g.tx.fibre.base.isSet && g.rx.fibre.base.isSet &&
    g.tx.radio.base.isSet && g.rx.radio.base.isSet

/-- Two regions share no word. -/
def disjointRegions (a b : Nat × Nat) : Bool := decide (a.1 + a.2 ≤ b.1) || decide (b.1 + b.2 ≤ a.1)

/-- Every region is disjoint from every later one. -/
def allDisjoint : List (Nat × Nat) → Bool
  | [] => true
  | r :: rest => rest.all (disjointRegions r) && allDisjoint rest

/-- START accepts the geometry (R5, R188). -/
def Geometry.accepted (g : Geometry) : Bool :=
  g.allSet && g.regions.all (fun r => decide (r.1 + r.2 ≤ 0x1000000)) && allDisjoint g.regions

/-! ### Header words (R15) -/

/-- A tag is among a header word's writing tags. -/
def mayWriteHeader (w : Nat) (t : Tag) : Bool :=
  match w with
  | 0 | 1 | 3 => isController t
  | 5 | 6 => decide (t = .fibreTerm)
  | 9 | 10 => decide (t = .radioTerm)
  | _ => false

/-- The path a header word belongs to: words 4 to 7 FIBRE, 8 to 11 RADIO (R18). -/
def headerPath (w : Nat) : Option Path :=
  if 4 ≤ w ∧ w ≤ 7 then some .fibre else if 8 ≤ w ∧ w ≤ 11 then some .radio else none

/-- The transmit producer word of a path (R15). -/
def txProducerWord : Path → Nat
  | .fibre => 4
  | .radio => 8

/-- The receive consumer word of a path (R15). -/
def rxConsumerWord : Path → Nat
  | .fibre => 7
  | .radio => 11

/-! ### Near bursts (R157) -/

/-- Burst length in words of a code. -/
def burstWords (code : Nat) : Nat :=
  match code with
  | 0 => 4
  | 1 => 8
  | _ => 16

/-- The number of words of a near cycle. -/
def State.cycleLength (s : State) (c : NearCycle) : Nat :=
  if c.burst then burstWords s.sdc.settings.bus.length else 1

/-- The offset of the k-th word of a burst of n words from start offset b, by the burst order's code. -/
def burstOffset (order n b k : Nat) : Nat := if order = 0 then (b + k) % n else Nat.xor b k

/-- The address of the k-th word of a near cycle. -/
def State.wordAddr (s : State) (c : NearCycle) (k : Nat) : Addr :=
  if c.burst then
    let n := burstWords s.sdc.settings.bus.length
    let a := c.addr.toNat
    BitVec.ofNat 24 (a / n * n + burstOffset s.sdc.settings.bus.order n (a % n) k)
  else c.addr

/-! ### The setting address (R173) -/

/-- Group, A[23:20]. -/
def settingGroup (a : Addr) : BitVec 4 := a.extractLsb' 20 4

/-- Item, A[19:16]. -/
def settingItem (a : Addr) : BitVec 4 := a.extractLsb' 16 4

/-- Index, A[15:8]. -/
def settingIndex (a : Addr) : BitVec 8 := a.extractLsb' 8 8

/-- The setting address of a group, item and index, with A[7:0] 0. -/
def settingAddr (group item : BitVec 4) (index : BitVec 8) : Addr := group ++ item ++ index ++ (0 : BitVec 8)

/-- Two setting addresses name the same group, item and index. -/
def sameSetting (a b : Addr) : Bool := decide (a.extractLsb' 8 16 = b.extractLsb' 8 16)

end Sys2Proof.Machine
end

