-- ==== Sys2Proof/Machine/Flags.lean ====
section
/-! DEFINITION. Alerts, fault records, saturating counts, timers, and the output lines that are functions of the state. -/

namespace Sys2Proof.Machine

/-- Add one to a count that stops at a bound. -/
def satInc (bound n : Nat) : Nat := if n < bound then n + 1 else bound

/-! ### Alerts (R184, R194) -/

/-- The bit of an alert cause (R184). -/
def alertBit : Alert → BitVec 7
  | .notice => 0x01
  | .path => 0x02
  | .transfer => 0x04
  | .integrity => 0x08
  | .switched => 0x10
  | .regime => 0x20
  | .failbackHeld => 0x40

/-- Raise an alert cause: into the pending set, out of the seen set (R194). -/
def raiseAlert (s : State) (a : Alert) : State :=
  { s with pcf.pending := s.pcf.pending ||| alertBit a, sdc.seen := s.sdc.seen &&& ~~~ alertBit a }

/-- ALRT: low while RSTN is low; else high while the pending set and the mask share a cause (R194). -/
def State.alrt (s : State) : Bool := s.rstn && decide (s.pcf.pending &&& s.pcf.mask ≠ 0)

/-- RPWR is high in phase POWERED and low while RSTN is low (R105). -/
def State.rpwr (s : State) : Bool := s.rstn && decide (s.pmn.power.phase = .powered)

/-! ### Faults (R191) -/

/-- The class of a cause (section 10.4). -/
def causeClass : FaultCause → FaultClass
  | .lateWrite | .postOverrun | .reclaimOverrun | .releaseOverrun | .guardedWrite | .settingRefused
  | .strayCompletion | .invalidDescriptor | .deferralFull => .notice
  | .pathDown | .terminalIndex | .attachTimeout | .radioFailed | .flapLimit | .noPath => .path
  | .farTimeout => .transfer
  | .farTimeoutRepeated | .timeoutInSwitch => .integrity

/-- The alert cause of a fault class (R194). -/
def classAlert : FaultClass → Alert
  | .notice => .notice
  | .path => .path
  | .transfer => .transfer
  | .integrity => .integrity

/-- Raise the count of a class, stopping at 255 (R191). -/
def FaultCounts.bump (c : FaultCounts) : FaultClass → FaultCounts
  | .notice => { c with notice := satInc 255 c.notice }
  | .path => { c with path := satInc 255 c.path }
  | .transfer => { c with transfer := satInc 255 c.transfer }
  | .integrity => { c with integrity := satInc 255 c.integrity }

/-- Whether a fault of a class may be written into an empty first-fault record: not an INTEGRITY fault taken in
HALTED or CONFIG (R191). -/
def mayBeFirst (c : FaultClass) (p : PartState) : Bool :=
  !(decide (c = .integrity) && (decide (p = .halted) || decide (p = .config)))

/-- Take a fault report: the four steps of R191. The move of an INTEGRITY fault to HALTED is `takeIntegrity`. -/
def takeFault (s : State) (cause : FaultCause) (path : Option Path) (slot : Option Nat) : State :=
  let r : FaultRec := ⟨causeClass cause, cause, path, slot, s.clock.uptime⟩
  let s1 : State :=
    { s with
      pcf.first := if s.pcf.first.isNone && mayBeFirst r.cls s.pcf.part then some r else s.pcf.first
      pcf.last := some r
      pcf.counts := s.pcf.counts.bump r.cls }
  raiseAlert s1 (classAlert r.cls)

/-! ### Timers (R196) -/

/-- A running timer's elapsed time is at or past a limit in REFCLK cycles. -/
def Timer.reached (t : Timer) (limit : Nat) : Bool :=
  match t with
  | none => false
  | some n => decide (limit ≤ n)

/-- One REFCLK cycle of a timer. -/
def Timer.tick (t : Timer) : Timer := t.map (· + 1)

/-- Milliseconds in REFCLK cycles. -/
def ms (n : Nat) : Nat := n * Config.msCycles

/-- Seconds in REFCLK cycles. -/
def secs (n : Nat) : Nat := ms (n * 1000)

/-- Minutes in REFCLK cycles. -/
def mins (n : Nat) : Nat := ms (n * 60000)

/-- The age of a recorded uptime, modulo 2^32 (R196). -/
def ageOf (now recorded : BitVec 32) : Nat := (now - recorded).toNat

end Sys2Proof.Machine
end

