-- ==== Sys2Proof/Machine/Ops.lean ====
section
/-! DEFINITION. The shared operations over the slot map, the slot tables, the queues and the short-write list. -/

namespace Sys2Proof.Machine

/-! ### Entries and slot records -/

/-- Entry of a service transmit slot. -/
def State.entry (s : State) (i : Nat) : TxEntry := s.tsm.entries.getD i freeEntry

/-- Replace the entry of a service transmit slot. -/
def setEntry (s : State) (i : Nat) (e : TxEntry) : State := { s with tsm.entries := s.tsm.entries.set i e }

/-- A path's transmit ring slot table. -/
def State.ring (s : State) (p : Path) : TxRing := s.ple.rings.get p

/-- Replace a path's transmit ring slot table. -/
def setRing (s : State) (p : Path) (r : TxRing) : State := { s with ple.rings := s.ple.rings.set p r }

/-- A slot record of a path transmit ring. -/
def TxRing.slotAt (r : TxRing) (i : Nat) : SlotRec := r.slots.getD i clearSlot

/-- Replace a slot record of a path transmit ring. -/
def setSlotRec (s : State) (p : Path) (i : Nat) (r : SlotRec) : State :=
  setRing s p { s.ring p with slots := (s.ring p).slots.set i r }

/-- A path's health record. -/
def State.pathRec (s : State) (p : Path) : PathRecord := s.pmn.recs.get p

/-- Replace a path's health record. -/
def setRec (s : State) (p : Path) (r : PathRecord) : State := { s with pmn.recs := s.pmn.recs.set p r }

/-- The path is UP. -/
def State.isUp (s : State) (p : Path) : Bool := decide ((s.pathRec p).health = .up)

/-- The policy of a class. -/
def State.policyOf (s : State) (c : Cls) : ClassPolicy := s.sdc.settings.policy.getD c.toNat (defaultPolicy c.toNat)

/-! ### Post order (R21) -/

/-- The sequence base: the counter minus the occupancy of the service transmit ring. -/
def State.seqBase (s : State) : Word := s.tsm.seqCtr - (s.tsm.post - s.tsm.reclaim)

/-- How far a sequence lies above the sequence base; the smaller is the older. -/
def State.orderOf (s : State) (seq : Word) : Nat := (seq - s.seqBase).toNat

/-- The post order of a service slot's entry. -/
def State.slotOrder (s : State) (i : Nat) : Nat := s.orderOf ((s.entry i).seq.getD 0)

/-- Insert before the first element whose key is above the new one's. -/
def insertBy {α : Type} (key : α → Nat) (a : α) : List α → List α
  | [] => [a]
  | b :: rest => if key a < key b then a :: b :: rest else b :: insertBy key a rest

/-! ### The short-write list (R164) -/

/-- Put an access at the tail of the short-write list. -/
def requestShort (s : State) (a : Access) : State := { s with fsp.list := s.fsp.list ++ [a] }

/-- The access is a waiting write of header word w. -/
def isHeaderWrite (w : Nat) (a : Access) : Bool := decide (a.kind = .header) && decide (a.hdr = w)

/-- Give the last waiting write of header word w a new data word; it keeps its place. -/
def replaceLastHeader (w : Nat) (v : Word) : List Access → List Access
  | [] => []
  | a :: rest =>
    if isHeaderWrite w a && !rest.any (isHeaderWrite w) then { a with words := [v] } :: rest
    else a :: replaceLastHeader w v rest

/-- A far write of a header word (R16, R163). -/
def headerAccess (s : State) (w : Nat) (v : Word) : Access :=
  ⟨.header, s.headerAddr w, [v], none, headerPath w, w, false, false⟩

/-- Request a header write; where two writes of the word already wait, the later takes the new data word (R164). -/
def requestHeader (s : State) (w : Nat) (v : Word) : State :=
  if 2 ≤ (s.fsp.list.filter (isHeaderWrite w)).length then
    { s with fsp.list := replaceLastHeader w v s.fsp.list }
  else requestShort s (headerAccess s w v)

/-- Request the single write of a word into w0 of a service slot: a mirror (R33) or a final write (R36). -/
def requestService (s : State) (kind : AccessKind) (i : Nat) (v : Word) : State :=
  requestShort s ⟨kind, s.svcTxAddr i 0, [v], some i, none, 0, false, false⟩

/-- Request the withdrawal write to w0 of a path slot (R9, R39). -/
def requestWithdrawal (s : State) (i : Nat) (p : Path) (pslot : Nat) (cls : Cls) : State :=
  requestShort s ⟨.withdrawal, s.txAddr p pslot 0, [withdrawalWord cls], some i, some p, 0, false, false⟩

/-- Remove the withdrawal write of a service slot wherever it stands on the list (R164). -/
def removeWithdrawal (s : State) (i : Nat) : State :=
  { s with fsp.list := s.fsp.list.filter (fun a => !(decide (a.kind = .withdrawal) && decide (a.slot = some i))) }

/-! ### Completion of an entry by the part (R11, R36) -/

/-- Make an entry SKIPPED with a status of the part's own and request its final write. -/
def skipEntry (s : State) (i : Nat) (status : Status) : State :=
  let e := s.entry i
  let s1 := setEntry s i
    { e with state := .skipped, path := none, pslot := none, final := some status, finalPending := some true }
  requestService s1 .final i (completionWord (e.cls.getD 0) status)

/-! ### Part work waiting for the far port (R165) -/

/-- The head of the short-write list waits: in STARTING and ACTIVE only, since CONFIG and HALTED request no work. -/
def State.shortWaits (s : State) : Bool :=
  (decide (s.pcf.part = .starting) || decide (s.pcf.part = .active)) && !s.fsp.list.isEmpty

/-- The placement engine's request waits. -/
def State.copyWaits (s : State) : Bool := decide (s.pcf.part = .active) && s.fsp.copyReq.isSome

/-- A reissue is due and may be granted (R165, R169). -/
def State.reissueWaits (s : State) : Bool :=
  (decide (s.pcf.part = .starting) || decide (s.pcf.part = .active)) && s.fsp.reissue.isSome

/-- Part work waits: short or copy (R165). -/
def State.partWaits (s : State) : Bool := s.shortWaits || s.copyWaits

/-- The near streak is 0 whenever no part work waits (R165). -/
def syncStreak (s : State) : State := if s.partWaits then s else { s with fsp.streak := 0 }

/-! ### The stall timers (R99) -/

/-- The four conditions under which a path's stall timer runs. -/
def State.stallRuns (s : State) (p : Path) : Bool :=
  decide (s.pcf.part = .active) &&
    (decide ((s.pathRec p).health = .trial) || decide ((s.pathRec p).health = .up)) &&
    decide (s.sdc.settings.timing.stall ≠ 0) &&
    decide ((s.ring p).producer ≠ (s.ring p).consumer)

/-- Start a path's stall timer when the conditions have come to hold, stop it when one has ceased to. -/
def syncStall (s : State) (p : Path) : State :=
  let r := s.pathRec p
  if s.stallRuns p then
    (if r.stall.isNone then setRec s p { r with stall := some 0 } else s)
  else setRec s p { r with stall := none }

/-- Restart a path's stall timer at 0 (R99); `syncStall` stops it where it may not run. -/
def restartStall (s : State) (p : Path) : State := setRec s p { s.pathRec p with stall := some 0 }

/-- Bring the stall timers and the near streak in line with the rest of the state. -/
def syncTimers (s : State) : State := syncStreak (syncStall (syncStall s .fibre) .radio)

end Sys2Proof.Machine
end

