-- ==== Sys2Proof/Machine/Power.lean ====
section
/-! DEFINITION. The radio power sequencer: standby, power-up and the keep timer (R105 to R107). -/

namespace Sys2Proof.Machine

/-- The standby condition (R106). -/
def State.standbyCond (s : State) : Bool :=
  decide (s.sdc.settings.radio.standby = .onDemand) && s.isUp .fibre && decide (s.swc.service = some .fibre) &&
    s.pmn.power.keep.isNone

/-- Entry to STANDBY (R106): not a down event. -/
def enterStandby (s : State) : State :=
  let r := s.pathRec .radio
  setRec
    { s with
      pmn.power.phase := .standby
      pmn.power.attach := none
      pmn.power.off := none
      pmn.power.retry := 0 }
    .radio { r with health := .off, trial := 0, silence := 0, stall := none }

/-- Entry to POWERED from STANDBY or FAILED: RPWR high, the radio DOWN, the attach timer started (R106, R111). -/
def powerUp (s : State) : State :=
  let r := s.pathRec .radio
  setRec { s with pmn.power.phase := .powered, pmn.power.attach := some 0 } .radio { r with health := .down }

/-- Evaluate the standby condition (R106). -/
def evalStandby (s : State) : State :=
  match s.pmn.power.phase with
  | .powered => if s.standbyCond then enterStandby s else s
  | .cycling => if s.standbyCond then enterStandby s else s
  | .standby => if s.standbyCond then s else powerUp s
  | .failed => s

/-- Start or restart the keep timer and evaluate the standby condition (R106, R107). -/
def startKeep (s : State) : State := evalStandby { s with pmn.power.keep := some 0 }

/-- Stop the keep timer and evaluate the standby condition (R106, R107). -/
def stopKeep (s : State) : State := evalStandby { s with pmn.power.keep := none }

/-- The path monitor's part of a service path change (R107, R115): a change to FIBRE under ON_DEMAND starts the keep
timer, a change away from FIBRE stops it, and the standby condition is evaluated. -/
def reportService (s : State) : State :=
  if s.swc.service = some .fibre then
    (if s.sdc.settings.radio.standby = .onDemand then startKeep s else evalStandby s)
  else stopKeep s

end Sys2Proof.Machine
end

