-- ==== Sys2Proof/Machine/Placement.lean ====
section
/-! DEFINITION. The placement engine: operations, decision steps, the deferral queue, scans and the claim (R46 to R70). -/

namespace Sys2Proof.Machine

/-! ### Beginning and ending an operation -/

/-- The far read of a service slot (R49, R163). -/
def placementReadAccess (s : State) (i : Nat) : Access :=
  ⟨.placementRead, s.svcTxAddr i 0, [], some i, none, 0, false, false⟩

/-- Begin an operation on a service slot: the entry becomes PLACING with the target as its path, the phase is READING
and the placement read is requested (R29, R49). -/
def beginOp (s : State) (i : Nat) (kind : OpKind) (target : Path) : State :=
  let s1 := setEntry s i { s.entry i with state := .placing, path := some target, pslot := none }
  { s1 with
    ple.op := some ⟨i, kind, .reading, target⟩
    fsp.copyReq := some (placementReadAccess s i) }

/-- Put a class into a scan's blocked set. -/
def Scan.block (c : Scan) (cls : Cls) : Scan :=
  if c.blocked.contains cls then c else { c with blocked := cls :: c.blocked }

/-- End the scan and both re-examination marks, as a claim does (R66, R67). -/
def dropScan (s : State) : State := { s with ple.scan := none, ple.rexPending := false, ple.rescan := false }

/-- End the operation present. A RE-DECISION ends the migration's current step (R131). A RELEASE that meets a claim ends
its scan (R66, R67); one deferred for CREDIT blocks its class (R66). -/
def endOp (s : State) (blocked : Option Cls) : State :=
  match s.ple.op with
  | none => s
  | some o =>
    let s1 : State := { s with ple.op := none }
    match o.kind with
    | .placement => s1
    | .reDecision => { s1 with swc.step := none }
    | .release =>
      if s.ple.claim = .none then
        match blocked with
        | none => s1
        | some c => { s1 with ple.scan := s1.ple.scan.map (·.block c) }
      else dropScan s1

/-! ### Outcomes (R30, R55 to R57) -/

/-- The post order of a deferral record. -/
def State.deferralOrder (s : State) (r : DeferralRec) : Nat := s.orderOf r.seq

/-- Put an entry into the deferral queue at its post-order position, or drop it with status 10 when the queue holds 64
records (R55). -/
def deferEntry (s : State) (i : Nat) : State :=
  let e := s.entry i
  if s.ple.deferralQ.length < Config.maxDeferred then
    let r : DeferralRec := ⟨i, e.cls.getD 0, e.seq.getD 0, s.clock.uptime⟩
    let s1 := setEntry s i { e with state := .deferred, path := none, pslot := none }
    { s1 with ple.deferralQ := insertBy s.deferralOrder r s.ple.deferralQ }
  else
    takeFault (skipEntry s i 10) .deferralFull none (some i)

/-- Return an entry to POSTED at its post-order position in the placement queue (R41, R57). -/
def requeue (s : State) (i : Nat) : State :=
  let s1 := setEntry s i { s.entry i with state := .posted, path := none, pslot := none }
  { s1 with ple.placementQ := insertBy s.slotOrder i s.ple.placementQ }

/-- Outcome "abandoned" of the operation present (R57). -/
def abandonOp (s : State) : State :=
  match s.ple.op with
  | none => s
  | some o => endOp (requeue s o.slot) none

/-! ### The decision steps -/

/-- An older entry of the same class waits in the deferral queue or the placement queue; a POSTED entry whose class is
not yet known counts as of the class (R51). -/
def State.olderWaits (s : State) (i : Nat) (cls : Cls) : Bool :=
  s.ple.deferralQ.any (fun r => decide (r.cls = cls) && decide (s.deferralOrder r < s.slotOrder i)) ||
    s.ple.placementQ.any (fun j =>
      ((s.entry j).cls.isNone || decide ((s.entry j).cls = some cls)) && decide (s.slotOrder j < s.slotOrder i))

/-- The policy cell of a class under a regime (R61). -/
def ClassPolicy.cell (p : ClassPolicy) : Regime → Action
  | .normal => p.normal
  | .soft => p.soft
  | .hard => p.hard
  | .battery => p.battery

/-- The action of a class towards a path (R52). -/
def State.action (s : State) (target : Path) (cls : Cls) : Action :=
  match target with
  | .fibre => .pass
  | .radio => if cls = 1 then .pass else (s.policyOf cls).cell s.umt.regime

/-- The cost of a placement (R53, R151). -/
def State.cost (s : State) (target : Path) (cls : Cls) (len : Word) : Nat :=
  match target with
  | .fibre => 0
  | .radio => if (s.policyOf cls).metered then len.toNat / 2 ^ (s.sdc.settings.metering.unit + 1) else 0

/-- The label of a class on a path (R62). -/
def State.label (s : State) (target : Path) (cls : Cls) : Word :=
  match target with
  | .fibre => (s.policyOf cls).fibreLabel
  | .radio => (s.policyOf cls).radioLabel

/-- The target ring has a free slot (R54). -/
def State.ringHasRoom (s : State) (p : Path) : Bool :=
  decide (advance (s.ring p).producer (s.ring p).consumer < s.txSize p)

/-- Begin the copy: the phase is COPYING, the entry takes its path slot, the cost leaves the pool and the composed copy
is requested (R54, R58). -/
def beginCopy (s : State) (o : Operation) : State :=
  let e := s.entry o.slot
  let cls := e.cls.getD 0
  let pslot := slotOf (s.ring o.target).producer (s.txSize o.target)
  let words := composeCopy s.ple.copyBuf cls (s.label o.target cls)
  let s1 := setEntry s o.slot { e with pslot := some pslot }
  { s1 with
    ple.op := some { o with phase := .copying }
    umt.pool := s.umt.pool - s.cost o.target cls (e.len.getD 0)
    fsp.copyReq := some
      ⟨.copy, s.txAddr o.target pslot 0, descriptorWords words, some o.slot, some o.target, 0, false, false⟩ }

/-- The credit test and the ring-full wait (R53, R54). An operation that reaches the wait while a claim is PENDING is
abandoned (R57, R70). -/
def creditAndRing (s : State) (o : Operation) : State :=
  let e := s.entry o.slot
  let cls := e.cls.getD 0
  if s.umt.pool < s.cost o.target cls (e.len.getD 0) then endOp (deferEntry s o.slot) (some cls)
  else if s.ringHasRoom o.target then beginCopy s o
  else if s.ple.claim = .pending then abandonOp s
  else { s with ple.op := some { o with phase := .waiting } }

/-- The decision steps of R50 to R54 on the operation present, taken at once after its read. A RELEASE goes straight to
the credit test (R66). -/
def decideOp (s : State) (o : Operation) : State :=
  let e := s.entry o.slot
  let cls := e.cls.getD 0
  let len := (e.len.getD 0).toNat
  if o.kind = .release then creditAndRing s o
  else if len = 0 ∨ Config.maxLength < len then
    endOp (takeFault (skipEntry s o.slot 11) .invalidDescriptor none (some o.slot)) none
  else if s.olderWaits o.slot cls then
    (if cls = 1 then abandonOp s else endOp (deferEntry s o.slot) (some cls))
  else
    match s.action o.target cls with
    | .pass => creditAndRing s o
    | .defer => endOp (deferEntry s o.slot) (some cls)
    | .skip => endOp (skipEntry s o.slot 8) none

/-- The words of a placement read reach the copy buffer, and class and length are cached unless an earlier read of the
same posting cached them (R8, R49). -/
def takeRead (s : State) (i : Nat) (d : Descriptor) : State :=
  let e := s.entry i
  let s1 := setEntry s i
    { e with cls := some (e.cls.getD (w0Class d.w0)), len := some (e.len.getD d.w1) }
  { s1 with ple.copyBuf := d }

/-! ### Re-examination (R64, R65) -/

/-- A prompt for a re-examination (R64). -/
def prompt (s : State) : State :=
  if s.pcf.part = .active ∧ s.swc.service.isSome ∧ s.ple.claim = .none then
    (if s.ple.scan.isSome then { s with ple.rescan := true } else { s with ple.rexPending := true })
  else s

/-- The oldest deferral record newer than the scan position (R65). -/
def State.nextRecord (s : State) (c : Scan) : Option DeferralRec :=
  s.ple.deferralQ.find? (fun r =>
    match c.pos with
    | none => true
    | some p => decide (s.orderOf p < s.deferralOrder r))

/-- An older POSTED entry of the class, or of an unknown class, is in the placement queue (R65). -/
def State.postedOlder (s : State) (r : DeferralRec) : Bool :=
  s.ple.placementQ.any (fun j =>
    ((s.entry j).cls.isNone || decide ((s.entry j).cls = some r.cls)) && decide (s.slotOrder j < s.deferralOrder r))

/-- Take a record out of the deferral queue. -/
def removeRecord (s : State) (i : Nat) : State :=
  { s with ple.deferralQ := s.ple.deferralQ.filter (fun r => decide (r.slot ≠ i)) }

/-- Judge the next record of a scan, or end the scan (R65). -/
def scanStep (s : State) (c : Scan) (service : Path) : State :=
  match s.nextRecord c with
  | none =>
    { s with
      ple.scan := none
      ple.rexPending := s.ple.rexPending || s.ple.rescan
      ple.rescan := false }
  | some r =>
    let c1 : Scan := { c with pos := some r.seq }
    let keep : State := { s with ple.scan := some (c1.block r.cls) }
    if c.blocked.contains r.cls || s.postedOlder r then keep
    else
      match s.action service r.cls with
      | .skip => skipEntry (removeRecord { s with ple.scan := some c1 } r.slot) r.slot 8
      | .defer => keep
      | .pass =>
        if s.umt.pool < s.cost service r.cls ((s.entry r.slot).len.getD 0) then keep
        else beginOp (removeRecord { s with ple.scan := some c1 } r.slot) r.slot .release service

/-! ### Choosing work (R48) -/

/-- The deferral queue's head is to be placed on FIBRE: the placement queue is empty or its head is newer (R48). -/
def State.deferralFirst (s : State) (r : DeferralRec) : Bool :=
  match s.ple.placementQ with
  | [] => true
  | j :: _ => decide (s.deferralOrder r < s.slotOrder j)

/-- One piece of the engine's own work when it may start any: the next record of a scan, a new scan, an operation on
the deferral queue's head (FIBRE) or on the placement queue's head; none when it is idle (R48, R65). -/
def engineStep (s : State) : Option State :=
  match s.pcf.part, s.swc.service, s.ple.claim, s.ple.op with
  | .active, some p, .none, none =>
    match s.ple.scan with
    | some c => some (scanStep s c p)
    | none =>
      if s.ple.rexPending then some { s with ple.rexPending := false, ple.scan := some ⟨[], none⟩ }
      else
        match p, s.ple.deferralQ, s.ple.placementQ with
        | .fibre, r :: _, q =>
          if s.deferralFirst r then some (beginOp (removeRecord s r.slot) r.slot .placement .fibre)
          else
            match q with
            | [] => none
            | i :: rest => some (beginOp { s with ple.placementQ := rest } i .placement .fibre)
        | p, _, i :: rest => some (beginOp { s with ple.placementQ := rest } i .placement p)
        | _, _, [] => none
  | _, _, _, _ => none

/-- Run the engine's own work until it has begun an operation or is idle, with fuel. A scan takes no time between its
records (R65). -/
def runEngine : Nat → State → State
  | 0, s => s
  | n + 1, s =>
    match engineStep s with
    | none => s
    | some t => runEngine n t

/-- Fuel above the longest run of the engine's own work: the rest of one scan, a second one and an operation begun. -/
def State.engineFuel (s : State) : Nat := 2 * s.ple.deferralQ.length + 8

/-- The engine works until it has begun an operation or is idle. -/
def settleEngine (s : State) : State := runEngine s.engineFuel s

/-! ### The claim (R57, R67, R70) -/

/-- The switch controller claims the engine: a scan without a RELEASE present ends at once, one with a RELEASE loses its
marks and ends with it, and an operation in WAITING is abandoned. -/
def claimEngine (s : State) : State :=
  let s1 : State := { s with ple.claim := .pending }
  let s2 : State :=
    if s1.ple.scan.isNone then s1
    else
      match s1.ple.op with
      | some _ => { s1 with ple.rexPending := false, ple.rescan := false }
      | none => dropScan s1
  match s2.ple.op with
  | some o => if o.phase = .waiting then abandonOp s2 else s2
  | none => s2

end Sys2Proof.Machine
end

