-- ==== Sys2Proof/Machine/Switch.lean ====
section
/-! DEFINITION. The switch controller: triggers, migrations and the failback wait (R114 to R138), and the zero-time work of
the part run to rest. -/

namespace Sys2Proof.Machine

/-! ### The service path (R115, R118) -/

/-- Both activity flags clear, both quiet timers stopped (R118). -/
def clearActivity (s : State) : State := { s with swc.voice := ⟨false, none⟩, swc.emergency := ⟨false, none⟩ }

/-- Set the service path; a change is reported to the path monitor, and NONE clears the activity flags (R115, R118). -/
def setService (s : State) (p : Option Path) : State :=
  let s1 := if s.swc.service = p then s else reportService { s with swc.service := p }
  if p = none then clearActivity s1 else s1

/-! ### Migrations (R127 to R134) -/

/-- Start, or restart, a migration toward a target (R127). -/
def startMigration (s : State) (target : Option Path) (kind : MigrationKind) : State :=
  let s1 : State :=
    { s with
      swc.state := .migrating
      swc.target := some target
      swc.kind := some kind }
  let s2 := setService s1 target
  let s3 := if target = none then takeFault s2 .noPath none none else s2
  claimEngine s3

/-- Stop the failback wait timer and clear its expired mark. -/
def stopWait (s : State) : State := { s with swc.wait := none, swc.expired := false }

/-- Service slots in ring order from the reclaim record, which is post order (R21). -/
def State.slotsInOrder (s : State) : List Nat :=
  (List.range s.tsm.entries.length).map
    (fun k => (slotOf s.tsm.reclaim s.tsm.entries.length + k) % s.tsm.entries.length)

/-- The entry is PLACED in the ring of a path other than the target (R128, first step). -/
def State.strandedAt (s : State) (target : Option Path) (i : Nat) : Bool :=
  decide ((s.entry i).state = .placed) && decide ((s.entry i).path ≠ target)

/-- The entry is PLACED in the target's ring and newer than a stranded entry of its class (R128, second step). -/
def State.behindStranded (s : State) (target : Option Path) (i : Nat) : Bool :=
  decide (target ≠ none) && decide ((s.entry i).state = .placed) && decide ((s.entry i).path = target) &&
    s.slotsInOrder.any (fun j =>
      s.strandedAt target j && decide ((s.entry j).cls = (s.entry i).cls) && decide (s.slotOrder j < s.slotOrder i))

/-- The migration list for a target (R128). -/
def State.migrationList (s : State) (target : Option Path) : List MigrationItem :=
  (s.slotsInOrder.filter (fun i => s.strandedAt target i || s.behindStranded target i)).map
    (fun i => ⟨i, (s.entry i).seq.getD 0⟩)

/-- The claim becomes HELD and the list is built (R70, R128). -/
def grantClaim (s : State) : State :=
  { s with ple.claim := .held, swc.list := s.migrationList (s.swc.target.getD none) }

/-- Examine the head of the migration list (R129): a PLACED entry becomes WITHDRAWING and its withdrawal write is
requested (R39); any other is passed over. -/
def examine (s : State) (i : MigrationItem) (rest : List MigrationItem) : State :=
  let e := s.entry i.slot
  let s1 : State := { s with swc.list := rest }
  match e.state, e.path, e.pslot with
  | .placed, some p, some ps =>
    requestWithdrawal
      { setEntry s1 i.slot { e with state := .withdrawing } with swc.step := some i.slot }
      i.slot p ps (e.cls.getD 0)
  | _, _, _ => s1

/-! ### Triggers (R120 to R123) -/

/-- The failback wait proceeds when emergency is clear and voice is clear or the wait expired (R123). -/
def testWait (s : State) : State :=
  if s.swc.state = .waiting ∧ s.swc.emergency.flag = false ∧ (s.swc.voice.flag = false ∨ s.swc.expired = true) then
    startMigration (stopWait s) (some .fibre) .failback
  else s

/-- The arrival trigger (R121). -/
def arrivalTrigger (s : State) : State :=
  if s.pcf.part = .active ∧ s.swc.service = none ∧ s.swc.state = .steady then
    (if s.isUp .fibre then startMigration s (some .fibre) .arrival
     else if s.isUp .radio then startMigration s (some .radio) .arrival
     else s)
  else s

/-- The automatic failback test (R122). -/
def failbackTest (s : State) : State :=
  if s.pcf.part = .active ∧ s.swc.state = .steady ∧ s.swc.service = some .radio ∧ s.isUp .fibre = true then
    match s.swc.mode with
    | .manual => raiseAlert s .failbackHeld
    | .auto =>
      if s.swc.force = none then
        testWait
          (raiseAlert { s with swc.state := .waiting, swc.wait := some 0, swc.expired := false } .failbackHeld)
      else s
  else s

/-- The switch state WAITING ends with the service kept (R123). -/
def endWait (s : State) : State := stopWait { s with swc.state := .steady }

/-- The target of a failover from a path: the other path if UP, else NONE (R120, R133). -/
def State.failoverTarget (s : State) (p : Path) : Option Path := if s.isUp (otherPath p) then some (otherPath p) else none

/-- A path has left UP (R120, R123, R133): a failover, the end of the wait, or the restart of the migration whose target
it is. -/
def pathLeftUp (s : State) (p : Path) : State :=
  if s.pcf.part = .active then
    (if s.swc.service = some p then
      (if s.swc.state = .migrating then
        startMigration { s with swc.force := none, swc.list := [] } (s.failoverTarget p) .failover
       else startMigration (stopWait { s with swc.force := none }) (s.failoverTarget p) .failover)
     else if s.swc.state = .waiting ∧ p = .fibre then endWait s
     else s)
  else s

/-- A path has become UP (R121, R122). -/
def pathBecameUp (s : State) (p : Path) : State :=
  let s1 := arrivalTrigger s
  match p with
  | .fibre => failbackTest s1
  | .radio => s1

/-- The end of a migration (R132), in the order of its steps. The engine chooses its next work at the release of the claim,
before the prompt (log 10), and the scan the prompt asks for follows at once on an engine that is idle, before the alert
and the triggers. -/
def endMigration (s : State) : State :=
  let target := s.swc.target.getD none
  let s1 : State :=
    { s with
      swc.state := .steady
      swc.target := none
      swc.kind := none
      swc.step := none
      ple.claim := .none }
  let s2 := settleEngine s1
  let s3 := if target = some .radio then settleEngine (prompt s2) else s2
  let s4 := raiseAlert s3 .switched
  let s5 : State :=
    match s.swc.kind with
    | some .failover => { s4 with swc.failovers := satInc 65535 s4.swc.failovers }
    | some .failback => { s4 with swc.failbacks := satInc 65535 s4.swc.failbacks }
    | some .arrival => s4
    | some .forced => s4
    | none => s4
  if s5.swc.service = none then arrivalTrigger s5
  else if s5.swc.service = some .radio then failbackTest s5
  else s5

/-! ### The zero-time work of the part (log 18) -/

/-- One piece of the work that takes no time: the grant of a pending claim (R70, R133), the next entry of the migration
list or the end of the migration (R129, R132), or the engine's own choice (R48, R65); none at rest. -/
def workStep (s : State) : Option State :=
  match s.ple.claim with
  | .none => engineStep s
  | .pending =>
    if s.pcf.part = .active ∧ s.swc.state = .migrating ∧ s.ple.op = none ∧ s.swc.step = none ∧ s.ple.scan = none then
      some (grantClaim s)
    else none
  | .held =>
    if s.pcf.part = .active ∧ s.swc.state = .migrating ∧ s.ple.op = none ∧ s.swc.step = none then
      match s.swc.list with
      | [] => some (endMigration s)
      | i :: rest => some (examine s i rest)
    else none

/-- Run the zero-time work to rest, with fuel. -/
def runWork : Nat → State → State
  | 0, s => s
  | n + 1, s =>
    match workStep s with
    | none => s
    | some t => runWork n t

/-- Fuel above the longest run of zero-time work: three migrations' lists and two scans of the deferral queue (log 18). -/
def State.workFuel (s : State) : Nat := 4 * s.tsm.entries.length + 4 * s.ple.deferralQ.length + 64

/-- Run the zero-time work to rest and bring the timers in line. -/
def settleWork (s : State) : State := syncTimers (runWork s.workFuel s)

end Sys2Proof.Machine
end

