-- ==== Sys2Proof/Machine/Monitor.lean ====
section
/-! DEFINITION. The path monitor: down events, trials, silence, debounce, the flap list and the attach sequence
(R91 to R112). -/

namespace Sys2Proof.Machine

/-- The grade of a down cause (R91). -/
def causeGrade : DownCause → Nat
  | .none => 0
  | .stall => 1
  | .silence => 2
  | .light => 3
  | .detach => 3
  | .powerCycle => 3
  | .terminalIndex => 3

/-- The down cause of a path's line (R98). -/
def lineCause : Path → DownCause
  | .fibre => .light
  | .radio => .detach

/-- Append a fibre down event to the flap list; reaching the limit sets MANUAL and raises FLAP_LIMIT (R103). -/
def flapAppend (s : State) : State :=
  let kept := if s.pmn.flaps.length < Config.maxFlaps then s.pmn.flaps else s.pmn.flaps.drop 1
  let s1 : State := { s with pmn.flaps := kept ++ [s.clock.uptime] }
  if s.sdc.settings.timing.flapLimit ≤ s1.pmn.flaps.length then
    takeFault { s1 with swc.mode := .manual } .flapLimit (some .fibre) none
  else s1

/-- The record of a path gone DOWN by a cause (R101, steps 1 to 3). -/
def PathRecord.goDown (r : PathRecord) (cause : DownCause) : PathRecord :=
  { r with
    health := .down
    grade := causeGrade cause
    cause := cause
    trial := 0
    silence := 0
    stall := none
    downs := satInc 65535 r.downs }

/-- A down event of a path in TRIAL or UP (R101). The radio leaving UP starts the attach timer (R108); the fibre's change
is an event of the standby condition (R106); leaving UP is reported to the switch controller (R92). -/
def downEvent (s : State) (p : Path) (cause : DownCause) : State :=
  let wasUp := s.isUp p
  let s1 := takeFault (setRec s p ((s.pathRec p).goDown cause)) .pathDown (some p) none
  let s2 :=
    match p with
    | .fibre => evalStandby (flapAppend s1)
    | .radio =>
      if wasUp = true ∧ s1.pmn.power.phase = .powered then { s1 with pmn.power.attach := some 0 } else s1
  if wasUp then pathLeftUp s2 p else s2

/-- A cause that arrives in DOWN (R102). -/
def causeWhileDown (s : State) (p : Path) (cause : DownCause) : State :=
  let r := s.pathRec p
  if r.grade ≤ causeGrade cause then setRec s p { r with grade := causeGrade cause, cause := cause } else s

/-- A down cause acts by the path's health state: a down event in TRIAL and UP, R102 in DOWN, nothing in OFF and FAILED
(R98, R100). -/
def applyCause (s : State) (p : Path) (cause : DownCause) : State :=
  match (s.pathRec p).health with
  | .trial => downEvent s p cause
  | .up => downEvent s p cause
  | .down => causeWhileDown s p cause
  | .off => s
  | .failed => s

/-- A terminal index report (R100). -/
def terminalIndex (s : State) (p : Path) : State :=
  applyCause (takeFault s .terminalIndex (some p) none) p .terminalIndex

/-- An arrival report (R94, R95). -/
def arrivalReport (s : State) (p : Path) : State :=
  let r := s.pathRec p
  setRec s p { r with mark := true, silence := if r.health = .up then 0 else r.silence }

/-- The path may enter TRIAL: the fibre always, the radio in phase POWERED (R97). -/
def State.mayTry (s : State) : Path → Bool
  | .fibre => true
  | .radio => decide (s.pmn.power.phase = .powered)

/-- Entry to TRIAL of a path that is DOWN (R97). -/
def enterTrial (s : State) (p : Path) : State :=
  let r := s.pathRec p
  if r.health = .down ∧ s.mayTry p = true then
    setRec s p { r with health := .trial, trial := 0, silence := 0, trials := satInc 65535 r.trials }
  else s

/-- A path becomes UP (R96): the radio's attach timer stops and its retry count is 0 (R108); the fibre's change is an
event of the standby condition (R106); the change is reported (R92). -/
def becomeUp (s : State) (p : Path) : State :=
  let s1 := setRec s p { s.pathRec p with health := .up, trial := 0, silence := 0 }
  match p with
  | .fibre => pathBecameUp (evalStandby s1) .fibre
  | .radio => pathBecameUp { s1 with pmn.power.attach := none, pmn.power.retry := 0 } .radio

/-- The trial length a path requires (R96). -/
def State.trialLength (s : State) (p : Path) : Nat :=
  let t := s.sdc.settings.timing
  match p with
  | .radio => t.radioTrial
  | .fibre =>
    match (s.pathRec .fibre).grade with
    | 1 => t.trial1
    | 2 => t.trial2
    | _ => t.trial3

/-- Silence detection is in force for a path (R95, R96). -/
def State.silenceInForce (s : State) (p : Path) : Bool :=
  decide (s.pcf.part = .active) && decide (s.sdc.settings.timing.silence.get p ≠ 0)

/-- Judgement of an UP path for silence (R95). -/
def judgeSilence (s : State) (p : Path) : State :=
  let r := s.pathRec p
  if s.silenceInForce p then
    (if r.mark then setRec s p { r with silence := 0 }
     else
      let n := satInc 255 r.silence
      let s1 := setRec s p { r with silence := n }
      if s.sdc.settings.timing.silence.get p ≤ n then downEvent s1 p .silence else s1)
  else s

/-- Judgement of a TRIAL path (R96); while the line is FALLING the count is unchanged and not compared (log 17). -/
def judgeTrial (s : State) (p : Path) : State :=
  let r := s.pathRec p
  match r.line with
  | .good =>
    let n := if r.mark = false ∧ s.silenceInForce p = true then 0 else satInc 255 r.trial
    let s1 := setRec s p { r with trial := n }
    if s.trialLength p ≤ n then becomeUp s1 p else s1
  | .falling _ => s
  | .bad => s

/-- Judgement of a path at an interval end, by its state at that moment (R94). -/
def judge (s : State) (p : Path) : State :=
  match (s.pathRec p).health with
  | .up => judgeSilence s p
  | .trial => judgeTrial s p
  | .down => if (s.pathRec p).line = .good then enterTrial s p else s
  | .off => s
  | .failed => s

/-- Clear a path's activity mark. -/
def clearMark (s : State) (p : Path) : State := setRec s p { s.pathRec p with mark := false }

/-- The end of a heartbeat interval (R94): FIBRE is judged and then RADIO, each with the work its change causes, and the
next interval begins at once with the setting in force. -/
def heartbeatEnd (s : State) : State :=
  let s1 := clearMark (clearMark (judge (settleWork (judge s .fibre)) .radio) .fibre) .radio
  { s1 with pmn.beat := 0, pmn.beatLen := s1.sdc.settings.timing.heartbeat }

/-! ### Line debounce (R98) -/

/-- Replace a path's debounce state. -/
def setLine (s : State) (p : Path) (l : LineState) : State := setRec s p { s.pathRec p with line := l }

/-- A bad confirmation (R98). -/
def badConfirm (s : State) (p : Path) : State := applyCause (setLine s p .bad) p (lineCause p)

/-- The confirm timer of a path's line is at or past its confirm time. -/
def State.confirmDue (s : State) (p : Path) : Bool :=
  match (s.pathRec p).line with
  | .falling n => decide (ms (s.sdc.settings.timing.confirm.get p) ≤ n)
  | .good => false
  | .bad => false

/-- The line goes to its bad level; a confirm time of 0 confirms at once (R98). -/
def lineFalls (s : State) (p : Path) : State :=
  match (s.pathRec p).line with
  | .good =>
    let s1 := setLine s p (.falling 0)
    if s1.confirmDue p then badConfirm s1 p else s1
  | .falling _ => s
  | .bad => s

/-- The line goes to its good level: from BAD a good confirmation, which lets a DOWN path enter TRIAL; from FALLING the
state is GOOD with no confirmation, and a DOWN path waits for the next interval end (R97, R98, log 9). -/
def lineRises (s : State) (p : Path) : State :=
  match (s.pathRec p).line with
  | .good => s
  | .falling _ => setLine s p .good
  | .bad => enterTrial (setLine s p .good) p

/-! ### Stall, attach, power cycle (R99, R108 to R110) -/

/-- A path's stall timer reaches the stall time (R99): the timer runs in TRIAL and UP only. -/
def stallExpires (s : State) (p : Path) : State :=
  match (s.pathRec p).health with
  | .trial => downEvent s p .stall
  | .up => downEvent s p .stall
  | .down => s
  | .off => s
  | .failed => s

/-- Entry to FAILED (R110). -/
def enterFailed (s : State) : State :=
  let r := s.pathRec .radio
  let s1 : State :=
    { s with
      pmn.power.phase := .failed
      pmn.power.attach := none
      pmn.power.off := none }
  takeFault (setRec s1 .radio { r with health := .failed, trial := 0, silence := 0, stall := none })
    .radioFailed (some .radio) none

/-- A power cycle begins (R109). -/
def powerCycle (s : State) : State :=
  let s1 : State := { s with pmn.power.phase := .cycling, pmn.power.attach := none }
  let s2 := if (s1.pathRec .radio).health = .trial then downEvent s1 .radio .powerCycle else s1
  { s2 with pmn.power.off := some 0 }

/-- The attach timer reaches the attach limit (R108). -/
def attachExpires (s : State) : State :=
  let n := satInc 8 s.pmn.power.retry
  let s1 := takeFault { s with pmn.power.attach := none, pmn.power.retry := n } .attachTimeout (some .radio) none
  if s.sdc.settings.radio.retry < n then enterFailed s1 else powerCycle s1

/-- The power-off timer expires (R109). -/
def powerOffExpires (s : State) : State :=
  { s with
    pmn.power.phase := .powered
    pmn.power.off := none
    pmn.power.attach := some 0 }

/-- Flap entries older than the window leave from the oldest (R104). -/
def expireFlaps (now : BitVec 32) (window : Nat) : List (BitVec 32) → List (BitVec 32)
  | [] => []
  | t :: rest => if window * 60000 < ageOf now t then expireFlaps now window rest else t :: rest

end Sys2Proof.Machine
end

