-- ==== Sys2Proof/Machine/Meter.lean ====
section
/-! DEFINITION. The usage meter: byte meters, regime, mains debounce and the credit pool (R140 to R155). -/

namespace Sys2Proof.Machine

/-- The exact byte total (R149). -/
def Umt.total (u : Umt) : Nat := u.tx.toNat + u.rx.toNat

/-- A cap is not 0 and is reached (R148). -/
def capReached (cap total : Nat) : Bool := decide (cap ≠ 0) && decide (cap * 16777216 ≤ total)

/-- The regime, by the first line of the table of R149 that applies. -/
def State.regimeNow (s : State) : Regime :=
  if s.umt.mains = .absent then .battery
  else if capReached s.sdc.settings.metering.hardCap s.umt.total then .hard
  else if capReached s.sdc.settings.metering.softCap s.umt.total then .soft
  else .normal

/-- Compute the regime; a change raises REGIME and prompts a re-examination (R149, R150). -/
def computeRegime (s : State) : State :=
  if s.regimeNow = s.umt.regime then s
  else prompt (raiseAlert { s with umt.regime := s.regimeNow } .regime)

/-- Add to a meter, which stops at 2^64 - 1 (R142). -/
def addBytes (m : BitVec 64) (n : Nat) : BitVec 64 :=
  if m.toNat + n < 2 ^ 64 then BitVec.ofNat 64 (m.toNat + n) else BitVec.allOnes 64

/-- Add a length to the radio transmit meter (R141). -/
def meterTx (s : State) (n : Nat) : State := computeRegime { s with umt.tx := addBytes s.umt.tx n }

/-- Add a value to the radio receive meter (R142). -/
def meterRx (s : State) (n : Nat) : State := computeRegime { s with umt.rx := addBytes s.umt.rx n }

/-- Word k of a 64-bit value, word 0 the lowest (R143). -/
def word64 (v : BitVec 64) (k : Nat) : Word := v.extractLsb' (16 * k) 16

/-- Replace word k of a 64-bit value (R146). -/
def setWord64 (v : BitVec 64) (k : Nat) (w : Word) : BitVec 64 :=
  (v &&& ~~~ (BitVec.setWidth 64 (BitVec.allOnes 16) <<< (16 * k))) ||| (BitVec.setWidth 64 w <<< (16 * k))

/-- The usage summary in MiB, saturated at 32 bits (R144). -/
def Umt.summary (u : Umt) : BitVec 32 :=
  if u.total / 1048576 ≤ 0xFFFFFFFF then BitVec.ofNat 32 (u.total / 1048576) else BitVec.allOnes 32

/-- A refill (R153). -/
def refill (s : State) : State :=
  let m := s.sdc.settings.metering
  let s1 : State := { s with umt.pool := min (s.umt.pool + m.amount) m.ceiling, umt.refill := 0 }
  if s1.swc.service = some .radio then prompt s1 else s1

/-- An absence confirmation of the mains (R147). -/
def mainsAbsent (s : State) : State := computeRegime { s with umt.mains := .absent }

/-- The mains confirm timer is at or past the confirm time. -/
def State.mainsDue (s : State) : Bool :=
  match s.umt.mains with
  | .falling n => decide (ms s.sdc.settings.radio.mainsConfirm ≤ n)
  | .present => false
  | .absent => false

/-- MAINS goes low; a confirm time of 0 confirms at once (R147). -/
def mainsFalls (s : State) : State :=
  match s.umt.mains with
  | .present =>
    let s1 : State := { s with umt.mains := .falling 0 }
    if s1.mainsDue then mainsAbsent s1 else s1
  | .falling _ => s
  | .absent => s

/-- MAINS goes high: from FALLING with no confirmation, from ABSENT with a presence confirmation (R147). -/
def mainsRises (s : State) : State :=
  match s.umt.mains with
  | .present => s
  | .falling _ => { s with umt.mains := .present }
  | .absent => computeRegime { s with umt.mains := .present }

end Sys2Proof.Machine
end

