-- ==== Sys2Proof/Machine/SlotMap.lean ====
section
/-! DEFINITION. The transmit slot map's tracked words: posts, reclaims, fetches, completions and consumer passes
(R22 to R40). -/

namespace Sys2Proof.Machine

/-! ### Posts and reclaims (R23 to R25) -/

/-- Take FREE entries from the post record on, at most `fuel` of them; answers how many were taken (R23). -/
def postLoop : Nat → State → Nat × State
  | 0, s => (0, s)
  | n + 1, s =>
    let i := slotOf s.tsm.post s.svcTxSize
    if (s.entry i).state = .free then
      let s1 := setEntry s i { freeEntry with state := .posted, seq := some s.tsm.seqCtr }
      let r := postLoop n
        { s1 with
          tsm.post := s.tsm.post + 1
          tsm.seqCtr := s.tsm.seqCtr + 1
          ple.placementQ := s.ple.placementQ ++ [i] }
      (r.1 + 1, r.2)
    else (0, s)

/-- A post (R23, R24). At most a ring of entries can be FREE, so no more are examined. -/
def takePost (s : State) (v : Word) : State :=
  let n := advance v s.tsm.post
  let r := postLoop (min n s.svcTxSize) s
  if r.1 < n then takeFault r.2 .postOverrun none (some (slotOf r.2.tsm.post r.2.svcTxSize)) else r.2

/-- An entry a reclaim frees (R25). -/
def TxEntry.reclaimable (e : TxEntry) : Bool :=
  (decide (e.state = .done) || decide (e.state = .skipped)) && decide (e.finalPending = some false)

/-- Free completed entries from the reclaim record on, at most `fuel` of them (R25). -/
def reclaimLoop : Nat → State → Nat × State
  | 0, s => (0, s)
  | n + 1, s =>
    let i := slotOf s.tsm.reclaim s.svcTxSize
    if (s.entry i).reclaimable then
      let s1 := setEntry s i freeEntry
      let r := reclaimLoop n { s1 with tsm.reclaim := s.tsm.reclaim + 1 }
      (r.1 + 1, r.2)
    else (0, s)

/-- A reclaim (R25). -/
def takeReclaim (s : State) (v : Word) : State :=
  let n := advance v s.tsm.reclaim
  let r := reclaimLoop (min n s.svcTxSize) s
  if r.1 < n then takeFault r.2 .reclaimOverrun none (some (slotOf r.2.tsm.reclaim r.2.svcTxSize)) else r.2

/-! ### Withdrawals met by the terminal (R40) -/

/-- A withdrawal is cancelled: its write leaves the list and the migration's current step ends (R40, R130). -/
def cancelWithdrawal (s : State) (i : Nat) : State :=
  let s1 := removeWithdrawal s i
  { s1 with swc.step := if s1.swc.step = some i then none else s1.swc.step }

/-! ### Fetch (R32) -/

/-- A read covering w0 of a slot of the terminal's own transmit ring (R32). -/
def takeFetch (s : State) (p : Path) (pslot : Nat) : State :=
  let r := (s.ring p).slotAt pslot
  match r.published, r.mapped with
  | true, some i =>
    match (s.entry i).state with
    | .placed => setEntry s i { s.entry i with state := .fetched }
    | .withdrawing => cancelWithdrawal (setEntry s i { s.entry i with state := .fetched }) i
    | .free => s
    | .posted => s
    | .placing => s
    | .fetched => s
    | .deferred => s
    | .done => s
    | .skipped => s
  | _, _ => s

/-! ### Completion (R33, R34) -/

/-- The entry holds a published path slot that its terminal has not completed. -/
def TxEntry.live (e : TxEntry) : Bool :=
  decide (e.state = .placed) || decide (e.state = .fetched) || decide (e.state = .withdrawing)

/-- A cancelled withdrawal where the entry was WITHDRAWING, nothing otherwise. -/
def cancelIf (s : State) (e : TxEntry) (i : Nat) : State := if e.state = .withdrawing then cancelWithdrawal s i else s

/-- A mirrored completion (R33): the entry becomes DONE, the slot is unmapped, the mirror write is requested, and a radio
SENT is metered (R141). -/
def mirrorCompletion (s : State) (p : Path) (pslot i : Nat) (w : Word) : State :=
  let e := s.entry i
  let s1 := setEntry s i
    { e with state := .done, path := none, pslot := none, final := some (w0Status w), finalPending := some true }
  let s2 := setSlotRec s1 p pslot { (s.ring p).slotAt pslot with mapped := none }
  let s3 := requestService (cancelIf s2 e i) .mirror i w
  if p = .radio ∧ w0Status w = 1 then meterTx s3 (e.len.getD 0).toNat else s3

/-- A terminal completion on a path transmit slot (R33, R34). -/
def takeCompletion (s : State) (p : Path) (pslot : Nat) (w : Word) : State :=
  let r := (s.ring p).slotAt pslot
  match r.mapped with
  | some i => if (s.entry i).live then mirrorCompletion s p pslot i w else s
  | none => if r.withdrawn then s else takeFault s .strayCompletion (some p) none

/-! ### Consumer passing (R37, R38) -/

/-- One passed path slot (R38): an uncompleted mapped entry becomes SKIPPED with status 12, a radio one is metered (R35),
and the slot record is clear. -/
def passSlot (s : State) (p : Path) (pslot : Nat) : State :=
  let r := (s.ring p).slotAt pslot
  let s1 := setSlotRec s p pslot clearSlot
  match r.mapped with
  | none => s1
  | some i =>
    let e := s.entry i
    if e.live then
      let s2 := skipEntry (cancelIf s1 e i) i 12
      if p = .radio then meterTx s2 (e.len.getD 0).toNat else s2
    else s1

/-- Pass n path slots from an index on, in index order (R37). -/
def passLoop (p : Path) : Nat → Word → State → State
  | 0, _, s => s
  | n + 1, i, s => passLoop p n (i + 1) (passSlot s p (slotOf i (s.txSize p)))

/-- The end of a ring-full wait on a path's ring: the credit test again and the copy (R54). -/
def endRingWait (s : State) (p : Path) : State :=
  match s.ple.op with
  | some o => if o.phase = .waiting ∧ o.target = p then creditAndRing s o else s
  | none => s

/-- A terminal's write of its own transmit consumer word (R37, R72). Every slot is passed before the work that
a pass of one of them starts: the scan a change of regime prompts on an idle engine (R35, R64), and the next entry of the
migration list after a withdrawal that the pass cancels (R38, R130): the model's choice (log 25). -/
def takeTxConsumer (s : State) (p : Path) (v : Word) : State :=
  let c := (s.ring p).consumer
  if inSpan v c (s.ring p).producer then
    let s1 := passLoop p (advance v c) c s
    let s2 := setRing s1 p { s1.ring p with consumer := v }
    if v = c then s2 else endRingWait (restartStall s2 p) p
  else terminalIndex s p

end Sys2Proof.Machine
end

