-- ==== Sys2Proof/Machine/Merge.lean ====
section
/-! DEFINITION. The receive merge unit: producer writes, the arrival list, assignment and release (R75 to R88). -/

namespace Sys2Proof.Machine

/-- A path's receive records. -/
def State.rxRecs (s : State) (p : Path) : RxRecs := s.rmu.recs.get p

/-- Replace a path's receive records. -/
def setRxRecs (s : State) (p : Path) (r : RxRecs) : State := { s with rmu.recs := s.rmu.recs.set p r }

/-- The service receive entry of a slot. -/
def State.rxEntry (s : State) (i : Nat) : RxEntry := s.rmu.entries.getD i .empty

/-- The service receive occupancy (R76). -/
def State.rxOccupancy (s : State) : Nat := advance s.rmu.available s.rmu.release

/-! ### The arrival list (R81) -/

/-- Add to the count of the last record naming a path. -/
def addToLatest (p : Path) (n : Nat) : List Batch → List Batch
  | [] => []
  | b :: rest =>
    if b.path = p ∧ rest.any (fun c => decide (c.path = p)) = false then { b with count := b.count + n } :: rest
    else b :: addToLatest p n rest

/-- A batch joins the arrival list: merged into the tail of its path, appended, or, on a full list, merged into its
path's most recent record (R81). -/
def joinArrivals (l : List Batch) (p : Path) (n : Nat) : List Batch :=
  match l.getLast? with
  | none => [⟨p, n⟩]
  | some tail =>
    if tail.path = p then addToLatest p n l
    else if l.length < Config.maxArrivals then l ++ [⟨p, n⟩]
    else addToLatest p n l

/-! ### Assignment (R82, R83) -/

/-- Assign one path slot of the head batch to the entry at the available record (R82). -/
def assignOne (s : State) (b : Batch) (rest : List Batch) : State :=
  let r := s.rxRecs b.path
  let i := slotOf s.rmu.available s.svcRxSize
  let s1 := setRxRecs s b.path { r with assigned := r.assigned + 1 }
  { s1 with
    rmu.entries := s.rmu.entries.set i (.filled b.path (slotOf r.assigned (s.rxSize b.path)))
    rmu.available := s.rmu.available + 1
    rmu.arrivals := if b.count ≤ 1 then rest else { b with count := b.count - 1 } :: rest }

/-- Assign until the arrival list is empty or the service ring is full; answers how many were assigned. -/
def assignLoop : Nat → State → Nat × State
  | 0, s => (0, s)
  | n + 1, s =>
    match s.rmu.arrivals with
    | [] => (0, s)
    | b :: rest =>
      if s.rxOccupancy < s.svcRxSize then
        let r := assignLoop n (assignOne s b rest)
        (r.1 + 1, r.2)
      else (0, s)

/-- An assignment run (R82); one that assigned something requests header word 2 (R83). -/
def assignRun (s : State) : State :=
  let r := assignLoop s.svcRxSize s
  if r.1 = 0 then r.2 else requestHeader r.2 2 r.2.rmu.available

/-! ### Producer writes (R79, R80) -/

/-- A terminal's write of its own receive producer word (R79, R80). -/
def takeRxProducer (s : State) (p : Path) (v : Word) : State :=
  let r := s.rxRecs p
  if inSpan v r.producer (stepIndex r.consumer (s.rxSize p)) then
    let n := advance v r.producer
    let s1 := setRxRecs s p { r with producer := v }
    if n = 0 then s1
    else assignRun (arrivalReport { s1 with rmu.arrivals := joinArrivals s1.rmu.arrivals p n } p)
  else terminalIndex s p

/-! ### Release (R85, R86) -/

/-- Release n entries from the release record on (R85). -/
def releaseLoop : Nat → State → State
  | 0, s => s
  | n + 1, s =>
    let i := slotOf s.rmu.release s.svcRxSize
    let s1 : State := { s with rmu.entries := s.rmu.entries.set i .empty, rmu.release := s.rmu.release + 1 }
    match s.rxEntry i with
    | .empty => releaseLoop n s1
    | .filled p _ => releaseLoop n (setRxRecs s1 p { s.rxRecs p with consumer := (s.rxRecs p).consumer + 1 })

/-- Request the consumer write-back of a path whose record advanced (R86). -/
def writeBack (old s : State) (p : Path) : State :=
  if (s.rxRecs p).consumer = (old.rxRecs p).consumer then s
  else requestHeader s (rxConsumerWord p) (s.rxRecs p).consumer

/-- A release (R85, R86). -/
def takeRelease (s : State) (v : Word) : State :=
  let n := advance v s.rmu.release
  let s1 := releaseLoop (min n s.rxOccupancy) s
  let s2 :=
    if s.rxOccupancy < n then
      takeFault s1 .releaseOverrun none (some (slotOf s.rmu.available s.svcRxSize))
    else s1
  assignRun (writeBack s (writeBack s s2 .fibre) .radio)

end Sys2Proof.Machine
end

