-- ==== Sys2Proof/Machine/Window.lean ====
section
/-! DEFINITION. The window decoder and the near words: the treatment of a word, what its owner takes at the grant, the
arbiter's rule for near runs and the hold line (R6, R26 to R28, R84, R159 to R162). -/

namespace Sys2Proof.Machine

/-- The treatment of a near word (R159). -/
inductive Treatment where
  | pass
  | redirect (addr : Addr)
  | guarded (path : Option Path)
  | hold
deriving DecidableEq, Repr

/-- The placement operation on a service slot is in phase WAITING (R28). -/
def State.opWaits (s : State) (i : Nat) : Bool :=
  match s.ple.op with
  | some o => decide (o.slot = i) && decide (o.phase = .waiting)
  | none => false

/-- Word k of the path slot of an entry. -/
def State.placedAddr (s : State) (e : TxEntry) (k : Nat) : Treatment :=
  match e.path, e.pslot with
  | some p, some ps => .redirect (s.txAddr p ps k)
  | _, _ => .pass

/-- A controller word to word k of service transmit slot i (R26 to R28, R44). -/
def State.svcTxTreatment (s : State) (dir : Dir) (i k : Nat) : Treatment :=
  let e := s.entry i
  match s.pcf.part with
  | .config => .pass
  | .starting => .hold
  | .active =>
    match e.state with
    | .placing => if s.opWaits i then .pass else .hold
    | .withdrawing => .hold
    | .placed | .fetched => if dir = .read then s.placedAddr e k else .pass
    | .free | .posted | .deferred | .done | .skipped => .pass
  | .halted =>
    match e.state with
    | .placed | .fetched => if dir = .read then s.placedAddr e k else .pass
    | .free | .posted | .placing | .withdrawing | .deferred | .done | .skipped => .pass

/-- A controller word to word k of service receive slot i (R84, R89, R90). -/
def State.svcRxTreatment (s : State) (i k : Nat) : Treatment :=
  match s.pcf.part with
  | .config => .pass
  | .starting => .hold
  | .active | .halted =>
    match s.rxEntry i with
    | .empty => .pass
    | .filled p ps => .redirect (s.rxAddr p ps k)

/-- The treatment of the word of a near memory cycle at an address (R6, R18, R159, R161). -/
def State.treatment (s : State) (c : NearCycle) (a : Addr) : Treatment :=
  if c.msetn = false ∨ s.pcf.part = .config then .pass
  else
    match s.regionOf a with
    | .svcTx i k => if isController c.tag then s.svcTxTreatment c.dir i k else .pass
    | .svcRx i k => if isController c.tag then s.svcRxTreatment i k else .pass
    | .header w => if c.dir = .write ∧ mayWriteHeader w c.tag = false then .guarded (headerPath w) else .pass
    | .tx p _ _ => if c.dir = .write ∧ tagPath c.tag ≠ some p then .guarded (some p) else .pass
    | .rx _ _ _ => .pass
    | .ordinary => .pass

/-- The far address of a word that is passed or redirected; none for a guarded or held word. -/
def Treatment.farAddr (t : Treatment) (own : Addr) : Option Addr :=
  match t with
  | .pass => some own
  | .redirect a => some a
  | .guarded _ => none
  | .hold => none

/-! ### What the owners take at the grant -/

/-- A write to a service transmit slot in a state that raises LATE_WRITE (R27, R28). -/
def State.lateSlot (s : State) (i : Nat) : Bool :=
  match (s.entry i).state with
  | .deferred | .placed | .fetched | .done | .skipped => true
  | .placing => s.opWaits i
  | .free | .posted | .withdrawing => false

/-- A controller write to a service transmit slot: LATE_WRITE once for the near cycle and the slot (R27). -/
def lateWrite (s : State) (c : NearCycle) (i : Nat) : State :=
  if s.lateSlot i && !c.late.contains i then
    let s1 := takeFault s .lateWrite none (some i)
    { s1 with nsi.near := s1.nsi.near.map (fun n => { n with late := i :: n.late }) }
  else s

/-- A write of a header word by one of its writing tags (R15). -/
def takeHeader (s : State) (w : Nat) (v : Word) : State :=
  match w with
  | 0 => takePost s v
  | 1 => takeReclaim s v
  | 3 => takeRelease s v
  | 5 => takeTxConsumer s .fibre v
  | 6 => takeRxProducer s .fibre v
  | 9 => takeTxConsumer s .radio v
  | 10 => takeRxProducer s .radio v
  | _ => s

/-- What the owner of a word does with it at its grant (R22, R78): in ACTIVE only, and never for a memory setting
cycle (R161). -/
def takeWord (s : State) (c : NearCycle) (a : Addr) (v : Word) : State :=
  if s.pcf.part = .active ∧ c.msetn = true then
    match s.regionOf a, c.dir with
    | .svcTx i _, .write => if isController c.tag then lateWrite s c i else s
    | .header w, .write => if mayWriteHeader w c.tag then takeHeader s w v else s
    | .tx p i k, .read => if k = 0 ∧ tagPath c.tag = some p then takeFetch s p i else s
    | .tx p i k, .write =>
      if k = 0 ∧ tagPath c.tag = some p ∧ isCompletion v = true then takeCompletion s p i v else s
    | .rx .radio _ k, .write => if k = 1 ∧ c.tag = .radioTerm then meterRx s v.toNat else s
    | _, _ => s
  else s

/-! ### The arbiter's rule for near runs (R162, R165) -/

/-- A near run that waits is granted the free port: no reissue is due, and no part work waits or the streak is below 4. -/
def State.nearWins (s : State) : Bool :=
  !s.reissueWaits && (!s.partWaits || decide (s.fsp.streak < Config.maxStreak))

/-- The far address is the next one up from the last word of the run. -/
def followsRun (last fa : Addr) : Bool := decide (fa.toNat = last.toNat + 1)

/-- The far address of the word the near memory cycle presents, when it is passed or redirected. -/
def State.presented (s : State) : Option Addr :=
  match s.nsi.near with
  | none => none
  | some c =>
    if c.cfgn = true ∧ c.dead = false then
      let a := s.wordAddr c c.pos
      (s.treatment c a).farAddr a
    else none

/-- A near run goes on: the word presented is passed or redirected to the next address up from its last word (R162). -/
def State.runGoesOn (s : State) (last : Addr) : Bool :=
  match s.presented with
  | none => false
  | some fa => followsRun last fa

/-- The far port is free for a grant: idle, or its near run has ended before the word presented (R162, log 7). -/
def State.portFree (s : State) : Bool :=
  match s.fsp.port with
  | .free => true
  | .nearOrphan _ => true
  | .nearRun last => !s.runGoesOn last
  | .nearHeld _ => false
  | .part _ => false

/-- FSEL is low for the length of a far cycle, and high again once its last word has transferred or an entry change has
ended its run (08, Signals; R162, R171). -/
def State.fsel (s : State) : Bool :=
  match s.fsp.port with
  | .free => true
  | .nearRun last => !s.runGoesOn last
  | .nearHeld _ => false
  | .nearOrphan _ => false
  | .part _ => false

/-- The near cycle has a word for the far port to grant: passed or redirected, and, for a write, with the data word that it
presented when it began to wait (R165, log 8). -/
def State.nearReady (s : State) : Bool :=
  match s.nsi.near with
  | none => false
  | some c => s.presented.isSome && (decide (c.dir = .read) || c.data.isSome)

/-- Count a near grant in the streak (R165). -/
def chargeNear (s : State) : State :=
  { s with fsp.streak := if s.partWaits then satInc Config.maxStreak s.fsp.streak else 0 }

/-! ### Near words -/

/-- The word completes on the near side; the cycle ends with its last word (R156). -/
def finishWord (s : State) : State :=
  match s.nsi.near with
  | none => s
  | some c =>
    if s.cycleLength c ≤ c.pos + 1 then { s with nsi.near := none }
    else { s with nsi.near := some { c with pos := c.pos + 1, data := none } }

/-- A near run that holds the port gives it up. -/
def closeRun (s : State) : State :=
  match s.fsp.port with
  | .nearRun _ => { s with fsp.port := .free }
  | .free => s
  | .nearHeld _ => s
  | .nearOrphan _ => s
  | .part _ => s

/-- The word transfers: a read's data reaches the near side, and the run stands open while the word presented next
follows it; else FSEL rises after this word (R162). A write leaves the near data lines at the last word answered (log 27). -/
def transferWord (s : State) (dir : Dir) (fa : Addr) (v : Word) : State :=
  let s1 : State := if dir = .read then { s with nsi.dataOut := v } else s
  let s2 := finishWord s1
  { s2 with fsp.port := if s2.runGoesOn fa then .nearRun fa else .free }

/-- The far-side lines of a near word: FMSETN takes the level of MSETN (R161), and the lines keep their levels between far
cycles, FD also in the far cycle of a read (log 26). -/
def State.nearPins (s : State) (c : NearCycle) (fa : Addr) (v : Word) : FarPins :=
  { fa := fa, fd := if c.dir = .write then v else s.fsp.pins.fd, frw := decide (c.dir = .read), fmsetn := c.msetn }

/-- The grant of a near word (R159): its far transfer begins and its owner takes it; the transfer ends at once unless
memory holds it with FHOLD. -/
def grantWord (s : State) (c : NearCycle) (a fa : Addr) (v : Word) (fhold : Bool) : State :=
  let s1 : State := { s with fsp.holdTimer := 0, fsp.pins := s.nearPins c fa v }
  let s2 := takeWord s1 c a v
  if fhold then { s2 with fsp.port := .nearHeld ⟨fa, c.dir, c.tag⟩ }
  else transferWord s2 c.dir fa v

/-- A word waits on the hold line; a write presents its data word meanwhile (R159, R160). -/
def waitWord (s : State) (c : NearCycle) (v : Word) : State :=
  if c.dir = .write then { s with nsi.near := some { c with data := some v } } else s

/-- A word that is passed or redirected: it goes on with the run, or is arbitrated as a new request, or waits. -/
def requestWord (s : State) (c : NearCycle) (a fa : Addr) (v : Word) (fhold : Bool) : State :=
  match s.fsp.port with
  | .part _ => waitWord s c v
  | .nearHeld _ => s
  | .nearRun last =>
    if followsRun last fa then grantWord s c a fa v fhold
    else
      let s1 := closeRun s
      if s1.nearWins then grantWord (chargeNear s1) c a fa v fhold else waitWord s1 c v
  | .free => if s.nearWins then grantWord (chargeNear s) c a fa v fhold else waitWord s c v
  | .nearOrphan _ =>
    let s1 : State := { s with fsp.port := .free }
    if s1.nearWins then grantWord (chargeNear s1) c a fa v fhold else waitWord s1 c v

/-- The word the near cycle presents reaches the far port (R159, R168). -/
def nearWord (s : State) (v : Word) (fhold : Bool) : State :=
  match s.nsi.near with
  | none => s
  | some c =>
    if c.cfgn = false then s
    else if c.dead then
      finishWord (if c.dir = .read then { s with nsi.dataOut := 0xFFFF } else s)
    else
      match s.fsp.port with
      | .nearHeld w => if fhold then s else transferWord s c.dir w.addr v
      | _ =>
        let a := s.wordAddr c c.pos
        match s.treatment c a with
        | .guarded p => finishWord (closeRun (takeFault s .guardedWrite p none))
        | .hold => waitWord (closeRun s) c v
        | .pass => requestWord s c a a v fhold
        | .redirect fa => requestWord s c a fa v fhold

/-! ### The hold line (R160) -/

/-- The word presented can be granted at this moment. -/
def State.grantable (s : State) (fa : Addr) : Bool :=
  match s.fsp.port with
  | .free => s.nearWins
  | .nearRun last => followsRun last fa || s.nearWins
  | .nearHeld _ => false
  | .nearOrphan _ => false
  | .part _ => false

/-- HOLD is asserted while the near word presented cannot yet complete, and while RSTN is low (R160, R171). -/
def State.holdAsserted (s : State) : Bool :=
  !s.rstn ||
    match s.nsi.near with
    | none => false
    | some c =>
      if c.cfgn = true ∧ c.dead = false then
        let a := s.wordAddr c c.pos
        match s.treatment c a with
        | .guarded _ => false
        | .hold => true
        | .pass => !s.grantable a
        | .redirect fa => !s.grantable fa
      else false

/-- The level of HOLD: code 0 asserts it low, code 1 high; low while RSTN is low (R160, R171). -/
def State.holdLevel (s : State) : Bool :=
  if s.rstn then s.holdAsserted == decide (s.sdc.settings.bus.polarity = 1) else false

/-! ### The near cycle itself (R156, R158) -/

/-- The cycle latched at address valid. -/
def latchCycle (addr : Addr) (dir : Dir) (burst : Bool) (tag : Tag) (cfgn msetn : Bool) : NearCycle :=
  ⟨addr, dir, burst, tag, cfgn, msetn, 0, false, [], none⟩

/-- Address valid: taken while IDLE, ignored while a cycle is present; kept for the rise of RSTN while RSTN is low. -/
def beginCycle (s : State) (c : NearCycle) : State :=
  if s.rstn then (if s.nsi.near.isNone then { s with nsi.near := some c } else s)
  else (if s.nsi.bus.isNone then { s with nsi.bus := some c } else s)

/-- SEL rises (R158): the cycle ends, its run gives up the port, and a far transfer already begun goes on alone. A CFGN-low
burst latched and not yet judged by SETTING_BURST leaves with no refusal and no notice (R174): the model's choice (log 21). -/
def endCycle (s : State) : State :=
  if s.rstn then
    let s1 : State := { s with nsi.near := none }
    match s.fsp.port with
    | .nearHeld w => { s1 with fsp.port := .nearOrphan w }
    | .nearRun _ => { s1 with fsp.port := .free }
    | .free => s1
    | .nearOrphan _ => s1
    | .part _ => s1
  else { s with nsi.bus := none }

end Sys2Proof.Machine
end

