-- ==== Sys2Proof/Machine/Arbiter.lean ====
section
/-! DEFINITION. The far-side port: grants, completions of the part's far cycles, the far hold limit and the entry into
HALTED (R33, R36, R41, R59, R165 to R170, R188, R189). -/

namespace Sys2Proof.Machine

/-! ### Grants (R165) -/

/-- Grant the port to a far cycle of the part. -/
def grantPart (s : State) (a : Access) : State :=
  { s with
    fsp.port := .part a
    fsp.streak := 0
    fsp.holdTimer := 0
    fsp.pins :=
      { fa := a.addr, fd := a.words.headD s.fsp.pins.fd, frw := a.words.isEmpty, fmsetn := true } }

/-- Grant the port to the near word that waits: it is decided, granted and taken in this one event (R159), and stays in
transfer until NEAR_WORD_GRANT ends it (log 8). -/
def grantNear (s : State) : State :=
  match s.nsi.near, s.presented with
  | some c, some fa => grantWord (chargeNear s) c (s.wordAddr c c.pos) fa (c.data.getD 0) true
  | _, _ => s

/-- Part work is granted: the head of the short-write list before the copy request (R165). -/
def grantWork (s : State) : State :=
  match s.fsp.list with
  | a :: rest =>
    if s.shortWaits then grantPart { s with fsp.list := rest } a else s
  | [] =>
    match s.fsp.copyReq with
    | some a => if s.copyWaits then grantPart { s with fsp.copyReq := none } a else s
    | none => s

/-- A grant of the far port, by the first line of R165's table that applies; a port that is not free grants nothing. -/
def grantPort (s : State) : State :=
  if s.portFree then
    let s0 : State := { s with fsp.port := .free }
    match s0.fsp.reissue, s0.reissueWaits with
    | some a, true => grantPart { s0 with fsp.reissue := none } a
    | _, _ => if s0.nearReady = true ∧ s0.nearWins = true then settleWork (grantNear s0) else grantWork s0
  else s

/-! ### Entry into HALTED (R137, R189, R193) -/

/-- The part enters HALTED: tables freeze, migrations and scans stop, the service path becomes NONE. -/
def enterHalted (s : State) : State :=
  let s1 : State :=
    { s with
      pcf.part := .halted
      swc.state := .steady
      swc.target := none
      swc.kind := none
      swc.step := none
      swc.wait := none
      swc.expired := false
      ple.claim := .none
      ple.scan := none }
  syncTimers (setService s1 none)

/-- Take an INTEGRITY fault: record it, then enter HALTED from ACTIVE or STARTING (R193). -/
def takeIntegrity (s : State) (cause : FaultCause) (path : Option Path) (slot : Option Nat) : State :=
  let s1 := takeFault s cause path slot
  match s.pcf.part with
  | .active => enterHalted s1
  | .starting => enterHalted s1
  | .config => s1
  | .halted => s1

/-! ### Completions of the part's far cycles -/

/-- The part's far cycle in flight of a kind. -/
def State.inFlight (s : State) (k : AccessKind) : Option Access :=
  match s.fsp.port with
  | .part a => if a.kind = k then some a else none
  | .free => none
  | .nearRun _ => none
  | .nearHeld _ => none
  | .nearOrphan _ => none

/-- A completion is applied to the tables: not in HALTED (R44, R60), and not after RECONFIGURE (R190). -/
def State.applies (s : State) (a : Access) : Bool := !a.void && !decide (s.pcf.part = .halted)

/-- The completion of a far cycle of a kind: the port is free, and the block acts where the completion applies. -/
def completeAccess (s : State) (k : AccessKind) (act : State → Access → State) : State :=
  match s.inFlight k with
  | none => s
  | some a =>
    let s1 : State := { s with fsp.port := .free }
    if s.applies a then act s1 a else s1

/-- The placement read completes: the decision steps of the operation present (R49). -/
def readDone (d : Descriptor) (s : State) (_a : Access) : State :=
  match s.ple.op with
  | none => s
  | some o => settleWork (decideOp (takeRead s o.slot d) o)

/-- Publication of class 1 or 2 while a service path is set retriggers its activity flag (R118). -/
def retrigger (s : State) (cls : Cls) : State :=
  if s.swc.service = none then s
  else if cls = 1 then { s with swc.emergency := ⟨true, some 0⟩ }
  else if cls = 2 then { s with swc.voice := ⟨true, some 0⟩ }
  else s

/-- The copy write completes: publication (R59). -/
def publish (s : State) (o : Operation) : State :=
  let e := s.entry o.slot
  let pslot := e.pslot.getD 0
  let r := s.ring o.target
  let s1 := setEntry s o.slot { e with state := .placed }
  let s2 := setRing s1 o.target
    { r with producer := r.producer + 1, slots := r.slots.set pslot ⟨true, some o.slot, false⟩ }
  let s3 := retrigger (requestHeader s2 (txProducerWord o.target) (r.producer + 1)) (e.cls.getD 0)
  endOp s3 none

/-- The completion of a copy publishes the operation's slot (R59). -/
def copyDone (s : State) (_a : Access) : State :=
  match s.ple.op with
  | none => s
  | some o => settleWork (publish s o)

/-- The withdrawal write completes (R41): the path slot is withdrawn and unmapped; the entry is re-decided under the
target of its migration, or returned to POSTED when the target is NONE or the migration was restarted (R131, R134). -/
def withdrawn (s : State) (i : Nat) : State :=
  let e := s.entry i
  let s1 :=
    match e.path, e.pslot with
    | some p, some ps => setSlotRec s p ps { (s.ring p).slotAt ps with mapped := none, withdrawn := true }
    | _, _ => s
  let s2 := setEntry s1 i { e with path := none, pslot := none }
  match s2.ple.claim, s2.swc.target with
  | .held, some (some t) => beginOp s2 i .reDecision t
  | _, _ => requeue { s2 with swc.step := none } i

/-- The completion of a withdrawal write. -/
def withdrawalDone (s : State) (a : Access) : State :=
  match a.slot with
  | none => s
  | some i => settleWork (withdrawn s i)

/-- The mirror or final write of an entry completes: final write pending becomes no (R33, R36). -/
def serviceWriteDone (s : State) (a : Access) : State :=
  match a.slot with
  | none => s
  | some i => setEntry s i { s.entry i with finalPending := some false }

/-! ### The START sequence (R16, R188) -/

/-- A read of the START sequence. -/
def startReadAccess (s : State) (w : Nat) : Access := ⟨.startRead, s.headerAddr w, [], none, none, w, false, false⟩

/-- A write of the START sequence; its fault record carries the path of the word (log 13). -/
def startWriteAccess (s : State) (w : Nat) (v : Word) : Access :=
  ⟨.startWrite, s.headerAddr w, [v], none, headerPath w, w, false, false⟩

/-- Both records of a path transmit ring take the value read (R73). -/
def startTxRecs (s : State) (p : Path) (v : Word) : State := setRing s p { s.ring p with producer := v, consumer := v }

/-- The three records of a path receive ring take the value read (R89). -/
def startRxRecs (s : State) (p : Path) (v : Word) : State := setRxRecs s p ⟨v, v, v⟩

/-- The owner takes the value of a START read (R43, R73, R89, R188). -/
def startTake (s : State) (w : Nat) (v : Word) : State :=
  match w with
  | 0 => { s with tsm.post := v, tsm.reclaim := v, tsm.seqCtr := 0 }
  | 1 => if v = s.tsm.post then s else takeFault s .reclaimOverrun none none
  | 3 => { s with rmu.available := v, rmu.release := v }
  | 5 => startTxRecs s .fibre v
  | 6 => startRxRecs s .fibre v
  | 9 => startTxRecs s .radio v
  | 10 => startRxRecs s .radio v
  | _ => s

/-- The access after the START read of a word: the next read, and after word 10 the first write (R188). -/
def startAfterRead (s : State) (w : Nat) : Access :=
  match w with
  | 0 => startReadAccess s 1
  | 1 => startReadAccess s 3
  | 3 => startReadAccess s 5
  | 5 => startReadAccess s 6
  | 6 => startReadAccess s 9
  | 9 => startReadAccess s 10
  | _ => startWriteAccess s 2 s.rmu.available

/-- A START read completes with a value. -/
def startReadDone (v : Word) (s : State) (a : Access) : State :=
  let s1 := startTake s a.hdr v
  requestShort s1 (startAfterRead s1 a.hdr)

/-- The silence counts are cleared as the part becomes ACTIVE (R93, R113). -/
def clearSilence (s : State) (p : Path) : State := setRec s p { s.pathRec p with silence := 0 }

/-- The service path START sets from the health of the paths (R136). -/
def State.startService (s : State) : Option Path :=
  if s.isUp .fibre then some .fibre else if s.isUp .radio then some .radio else none

/-- The part becomes ACTIVE (R188): pool, service path (NO_PATH when NONE), silence counts, the engine's choice. -/
def becomeActive (s : State) : State :=
  let s1 : State := { s with pcf.part := .active, umt.pool := s.sdc.settings.metering.ceiling }
  let s2 := clearSilence (clearSilence s1 .fibre) .radio
  let p := s2.startService
  let s3 := setService s2 p
  let s4 := if p = none then takeFault s3 .noPath none none else s3
  settleWork s4

/-- A START write completes: the next write, and after word 11 the part goes from STARTING to ACTIVE (R187, R188). -/
def startWriteDone (s : State) (a : Access) : State :=
  match a.hdr with
  | 2 => requestShort s (startWriteAccess s 4 (s.ring .fibre).producer)
  | 4 => requestShort s (startWriteAccess s 7 (s.rxRecs .fibre).consumer)
  | 7 => requestShort s (startWriteAccess s 8 (s.ring .radio).producer)
  | 8 => requestShort s (startWriteAccess s 11 (s.rxRecs .radio).consumer)
  | _ => if s.pcf.part = .starting then becomeActive s else s

/-! ### The far hold limit (R167 to R170) -/

/-- A near word meets the limit (R168): the fault is raised once for the cycle, by its tag. -/
def nearTimeout (s : State) (w : NearFlight) : State := takeFault s .farTimeout (tagPath w.tag) none

/-- The near cycle whose word met the limit: a read returns 0xFFFF, and the rest of the cycle completes empty. -/
def killCycle (s : State) (w : NearFlight) : State :=
  let s1 : State := if w.dir = .read then { s with nsi.dataOut := 0xFFFF } else s
  finishWord { s1 with nsi.near := s1.nsi.near.map (fun c => { c with dead := true }) }

/-- A part access meets the limit: the ladder of R169, R170 and R192. -/
def partTimeout (s : State) (a : Access) : State :=
  if s.swc.state = .migrating then takeIntegrity s .timeoutInSwitch a.path a.slot
  else if a.again then takeIntegrity s .farTimeoutRepeated a.path a.slot
  else
    let s1 := takeFault s .farTimeout a.path a.slot
    if a.void then s1 else { s1 with fsp.reissue := some { a with again := true } }

/-- The far hold limit ends the far cycle in transfer (R167). -/
def holdLimit (s : State) : State :=
  match s.fsp.port with
  | .free => s
  | .nearRun _ => s
  | .nearHeld w =>
    nearTimeout (killCycle { s with fsp.port := .free, fsp.holdTimer := Config.farHoldLimit } w) w
  | .nearOrphan w => nearTimeout { s with fsp.port := .free, fsp.holdTimer := Config.farHoldLimit } w
  | .part a => partTimeout { s with fsp.port := .free, fsp.holdTimer := Config.farHoldLimit } a

end Sys2Proof.Machine
end

