-- ==== Sys2Proof/Machine/Decoder.lean ====
section
/-! DEFINITION. The setting decoder: the guard, the settings with their ranges and defaults, what a taken setting does at
once, and every read (R172 to R186). -/

namespace Sys2Proof.Machine

/-! ### Refusal (R176) -/

/-- A refused cycle: notice SETTING_REFUSED, the refusal record replaced, and a read answered with 0 (R176). The notice
leaves the seen set as every raised cause does (R194), also where the refused cycle reads the alert pending item (log 24). -/
def refuse (s : State) (cause : RefusalCause) (tag : Tag) (addr : Addr) (dir : Dir) : State :=
  let s1 := takeFault s .settingRefused none none
  let s2 : State :=
    { s1 with sdc.refusal := ⟨cause, settingGroup addr, settingItem addr, settingIndex addr, tag, dir⟩ }
  if dir = .read then { s2 with nsi.dataOut := 0 } else s2

/-- The group, item and index are defined for a write (R173, R178 to R180). -/
def writeDefined (group item index : Nat) : Bool :=
  match group with
  | 0 => decide (item ≤ 2)
  | 1 => decide (item ≤ 12)
  | 2 => decide (item ≤ 6) && decide (index ≤ 7)
  | 3 => true
  | 4 => decide (item ≤ 5)
  | 5 => decide (item ≤ 5) || (decide (item = 6) && decide (index ≤ 7))
  | 6 => decide (item ≤ 10)
  | _ => false

/-- The group, item and index are defined for a read (R182, R183, R185). -/
def readDefined (group item index : Nat) : Bool :=
  match group with
  | 8 =>
    match item with
    | 3 => decide (index ≤ 6)
    | 4 => decide (index ≤ 6)
    | 5 => decide (index ≤ 8)
    | 8 => decide (index ≤ 8)
    | 12 => decide (index ≤ 1)
    | 13 => decide (index ≤ 5)
    | _ => decide (item ≤ 13)
  | 9 =>
    match item with
    | 0 => decide (index ≤ 7)
    | 1 => decide (index ≤ 1)
    | _ => false
  | 10 =>
    match item with
    | 0 => decide (index ≤ 5)
    | 1 => decide (index ≤ 5)
    | 2 => decide (1 ≤ index) && decide (index ≤ 4)
    | _ => false
  | _ => writeDefined group item index

/-- The group or item is taken in CONFIG only (R173, R179). -/
def configOnly (group item : Nat) : Bool :=
  decide (group = 0) || decide (group = 1) || (decide (group = 5) && decide (item = 6))

/-- A command's value is in its range (R180). -/
def commandInRange (item v : Nat) : Bool :=
  match item with
  | 3 => decide (v ≤ 2)
  | 5 => decide (v ≤ 1)
  | 10 => decide (v ≤ 127)
  | _ => true

/-- A POLICY write that class 1 forbids (R61, R178). -/
def classOneForbids (group item index v : Nat) : Bool :=
  decide (group = 2) && decide (index = 1) &&
    ((decide (item ≤ 3) && (decide (v = 1) || decide (v = 2))) || (decide (item = 6) && decide (v = 1)))

/-- The tests of R176 that the setting decoder makes on a write, in their order. -/
def judgeWrite (s : State) (tag : Tag) (addr : Addr) (v : Word) : Option RefusalCause :=
  let g := (settingGroup addr).toNat
  let i := (settingItem addr).toNat
  let x := (settingIndex addr).toNat
  if tag ≠ .supervisor then some .guard
  else if writeDefined g i x = false then some .unknown
  else if configOnly g i = true ∧ s.pcf.part ≠ .config then some .state
  else if g = 6 ∧ commandInRange i v.toNat = false then some .unknown
  else if classOneForbids g i x v.toNat then some .guard
  else none

/-- The tests of R176 on a read. -/
def judgeRead (tag : Tag) (addr : Addr) : Option RefusalCause :=
  if isController tag = false then some .guard
  else if readDefined (settingGroup addr).toNat (settingItem addr).toNat (settingIndex addr).toNat = false then
    some .unknown
  else none

/-! ### Setting cycles (R172, log 1) -/

/-- A setting cycle of a direction, kind, tag and address can complete: the interface is IDLE and the command is the
whole cycle, or the cycle latched is this one. -/
def State.cycleFits (s : State) (dir : Dir) (burst : Bool) (tag : Tag) (addr : Addr) : Bool :=
  s.rstn &&
    match s.nsi.near with
    | none => true
    | some c =>
      decide (c.cfgn = false) && decide (c.burst = burst) && decide (c.dir = dir) && decide (c.tag = tag) &&
        sameSetting c.addr addr

/-- A setting write cycle: judged (R176), refused by its owner, or taken. During the settle it is not taken and raises
nothing (R186). -/
def writeCycle (s : State) (tag : Tag) (addr : Addr) (v : Word) (owner : State → Option RefusalCause)
    (take : State → State) : State :=
  if s.cycleFits .write false tag addr then
    let s1 : State := { s with nsi.near := none }
    if s1.settle.isSome then s1
    else
      match judgeWrite s1 tag addr v with
      | some c => refuse s1 c tag addr .write
      | none =>
        match owner s1 with
        | some c => refuse s1 c tag addr .write
        | none => take s1
  else s

/-- No owner refuses a plain setting. -/
def noRefusal (_s : State) : Option RefusalCause := none

/-! ### Ranges and defaults (R177) -/

/-- A value in its range, else the default. -/
def ranged (lo hi dflt v : Nat) : Nat := if lo ≤ v ∧ v ≤ hi then v else dflt

/-- An action code, else the cell's default (R61). -/
def actionOf (v : Nat) (dflt : Action) : Action :=
  match v with
  | 0 => .pass
  | 1 => .defer
  | 2 => .skip
  | _ => dflt

/-- An action's code (R61). -/
def actionCode : Action → Nat
  | .pass => 0
  | .defer => 1
  | .skip => 2

/-- A metered code, else the class's default (R13, R178). -/
def meteredOf (v : Nat) (dflt : Bool) : Bool :=
  match v with
  | 0 => false
  | 1 => true
  | _ => dflt

/-- Store a BUS setting (R157, R160, R178). -/
def storeBus (b : BusSettings) (item v : Nat) : BusSettings :=
  match item with
  | 0 => { b with length := ranged 0 2 1 v }
  | 1 => { b with order := ranged 0 1 0 v }
  | 2 => { b with polarity := ranged 0 1 0 v }
  | _ => b

/-- Write a ring's base: the value, marked set (R5). -/
def RingSetting.setBase (r : RingSetting) (v : Word) : RingSetting := { r with base := ⟨v, true⟩ }

/-- Write a ring's size code, else its default (R4). -/
def RingSetting.setSize (r : RingSetting) (hi dflt v : Nat) : RingSetting := { r with size := ranged 0 hi dflt v }

/-- Store a GEOMETRY setting (R4, R5, R178). -/
def storeGeometry (g : Geometry) (item : Nat) (v : Word) : Geometry :=
  match item with
  | 0 => { g with svcTx := g.svcTx.setBase v }
  | 1 => { g with svcTx := g.svcTx.setSize 3 1 v.toNat }
  | 2 => { g with svcRx := g.svcRx.setBase v }
  | 3 => { g with svcRx := g.svcRx.setSize 3 1 v.toNat }
  | 4 => { g with header := ⟨v, true⟩ }
  | 5 => { g with tx := g.tx.set .fibre (g.tx.fibre.setBase v) }
  | 6 => { g with tx := g.tx.set .fibre (g.tx.fibre.setSize 4 2 v.toNat) }
  | 7 => { g with rx := g.rx.set .fibre (g.rx.fibre.setBase v) }
  | 8 => { g with rx := g.rx.set .fibre (g.rx.fibre.setSize 4 2 v.toNat) }
  | 9 => { g with tx := g.tx.set .radio (g.tx.radio.setBase v) }
  | 10 => { g with tx := g.tx.set .radio (g.tx.radio.setSize 4 2 v.toNat) }
  | 11 => { g with rx := g.rx.set .radio (g.rx.radio.setBase v) }
  | 12 => { g with rx := g.rx.set .radio (g.rx.radio.setSize 4 2 v.toNat) }
  | _ => g

/-- Store a POLICY setting of a class (R61, R62, R178). -/
def storePolicy (p : ClassPolicy) (cls item : Nat) (v : Word) : ClassPolicy :=
  let d := defaultPolicy cls
  match item with
  | 0 => { p with normal := actionOf v.toNat d.normal }
  | 1 => { p with soft := actionOf v.toNat d.soft }
  | 2 => { p with hard := actionOf v.toNat d.hard }
  | 3 => { p with battery := actionOf v.toNat d.battery }
  | 4 => { p with fibreLabel := v }
  | 5 => { p with radioLabel := v }
  | 6 => { p with metered := meteredOf v.toNat d.metered }
  | _ => p

/-- Store a TIMING setting (R179). -/
def storeTiming (t : Timing) (item v : Nat) : Timing :=
  match item with
  | 0 => { t with heartbeat := ranged 1 255 10 v }
  | 1 => { t with silence := t.silence.set .fibre (ranged 0 255 10 v) }
  | 2 => { t with silence := t.silence.set .radio (ranged 0 255 0 v) }
  | 3 => { t with confirm := t.confirm.set .fibre (ranged 0 255 50 v) }
  | 4 => { t with confirm := t.confirm.set .radio (ranged 0 255 200 v) }
  | 5 => { t with stall := ranged 0 255 30 v }
  | 6 => { t with trial1 := ranged 1 255 5 v }
  | 7 => { t with trial2 := ranged 1 255 10 v }
  | 8 => { t with trial3 := ranged 1 255 30 v }
  | 9 => { t with radioTrial := ranged 1 255 3 v }
  | 10 => { t with deferralAge := ranged 0 255 60 v }
  | 11 => { t with voiceQuiet := ranged 1 255 10 v }
  | 12 => { t with emergencyQuiet := ranged 1 255 30 v }
  | 13 => { t with failbackWait := ranged 0 255 20 v }
  | 14 => { t with flapWindow := ranged 1 255 30 v }
  | 15 => { t with flapLimit := ranged 1 15 4 v }
  | _ => t

/-- A standby policy code, else the default (R112). -/
def standbyOf (v : Nat) : Standby :=
  match v with
  | 1 => .onDemand
  | _ => .alwaysOn

/-- Store a RADIO setting (R179). -/
def storeRadio (r : RadioSettings) (item v : Nat) : RadioSettings :=
  match item with
  | 0 => { r with standby := standbyOf v }
  | 1 => { r with attach := ranged 1 255 90 v }
  | 2 => { r with powerOff := ranged 1 255 5 v }
  | 3 => { r with retry := ranged 0 7 3 v }
  | 4 => { r with keep := ranged 1 255 10 v }
  | 5 => { r with mainsConfirm := ranged 0 255 100 v }
  | _ => r

/-- Store a METERING setting (R179). -/
def storeMetering (m : Metering) (item v : Nat) : Metering :=
  match item with
  | 0 => { m with softCap := v }
  | 1 => { m with hardCap := v }
  | 2 => { m with unit := ranged 0 31 5 v }
  | 3 => { m with amount := v }
  | 4 => { m with period := ranged 1 255 10 v }
  | 5 => { m with ceiling := ranged 1 65535 16000 v }
  | _ => m

/-! ### Timers at or past their settings (R93, R116, R153) -/

/-- The stall timer of a path is at or past the stall time. -/
def State.stallDue (s : State) (p : Path) : Bool :=
  decide (s.sdc.settings.timing.stall ≠ 0) &&
    Timer.reached (s.pathRec p).stall (ms (s.sdc.settings.timing.stall * 100))

/-- The attach timer is at or past the attach limit. -/
def State.attachDue (s : State) : Bool := Timer.reached s.pmn.power.attach (secs s.sdc.settings.radio.attach)

/-- The power-off timer is at or past the power-off time. -/
def State.powerOffDue (s : State) : Bool := Timer.reached s.pmn.power.off (secs s.sdc.settings.radio.powerOff)

/-- The keep timer is at or past the keep time. -/
def State.keepDue (s : State) : Bool := Timer.reached s.pmn.power.keep (mins s.sdc.settings.radio.keep)

/-- An activity flag of the switch controller. -/
def State.activity (s : State) : Activity → ActivityFlag
  | .voice => s.swc.voice
  | .emergency => s.swc.emergency

/-- The quiet time of an activity flag (R118). -/
def State.quietTime (s : State) : Activity → Nat
  | .voice => s.sdc.settings.timing.voiceQuiet
  | .emergency => s.sdc.settings.timing.emergencyQuiet

/-- A quiet timer is at or past its quiet time. -/
def State.quietDue (s : State) (a : Activity) : Bool := Timer.reached (s.activity a).timer (secs (s.quietTime a))

/-- The failback wait timer is at or past a non-zero wait time (R123). -/
def State.waitDue (s : State) : Bool :=
  decide (s.sdc.settings.timing.failbackWait ≠ 0) &&
    Timer.reached s.swc.wait (mins s.sdc.settings.timing.failbackWait)

/-- The refill timer is at or past the refill period (R153). -/
def State.refillDue (s : State) : Bool := decide (ms (s.sdc.settings.metering.period * 10) ≤ s.umt.refill)

/-- A quiet timer reaches its quiet time: its flag clears, and the failback wait is tested (R118, R123). -/
def quietExpires (s : State) (a : Activity) : State :=
  match a with
  | .voice => testWait { s with swc.voice := ⟨false, none⟩ }
  | .emergency => testWait { s with swc.emergency := ⟨false, none⟩ }

/-- The failback wait timer reaches its wait time: it stops, the mark is set, and the wait is tested (R123). -/
def waitExpires (s : State) : State := testWait { s with swc.wait := none, swc.expired := true }

/-! ### What a taken setting does at once -/

/-- Run an expiry where it is due, and the work that follows it. -/
def expireIf (due : Bool) (act : State → State) (s : State) : State := if due then settleWork (act s) else s

/-- After a stored TIMING setting: a running timer now at or past its setting expires at once (R93, R116). A stall time that
expires both stall timers takes FIBRE, with the work its down event causes, before RADIO: the model's choice (log 23). -/
def afterTiming (s : State) (item : Nat) : State :=
  match item with
  | 3 => expireIf (s.confirmDue .fibre) (fun t => badConfirm t .fibre) s
  | 4 => expireIf (s.confirmDue .radio) (fun t => badConfirm t .radio) s
  | 5 =>
    let s1 := syncTimers s
    let s2 := expireIf (s1.stallDue .fibre) (fun t => stallExpires t .fibre) s1
    expireIf (s2.stallDue .radio) (fun t => stallExpires t .radio) s2
  | 11 => expireIf (s.quietDue .voice) (fun t => quietExpires t .voice) s
  | 12 => expireIf (s.quietDue .emergency) (fun t => quietExpires t .emergency) s
  | 13 => expireIf s.waitDue waitExpires s
  | _ => s

/-- After a stored RADIO setting (R93, R147). -/
def afterRadio (s : State) (item : Nat) : State :=
  match item with
  | 1 => expireIf s.attachDue attachExpires s
  | 2 => if s.powerOffDue then powerOffExpires s else s
  | 4 => if s.keepDue then stopKeep s else s
  | 5 => expireIf s.mainsDue mainsAbsent s
  | _ => s

/-- The tables follow the size settings, which are taken in CONFIG, where the tables are empty (R42, R45, R71, R90,
log 12). -/
def resizeTables (s : State) (item : Nat) : State :=
  match item with
  | 1 => { s with tsm := emptyTsm s.svcTxSize }
  | 3 => { s with rmu := emptyRmu s.svcRxSize }
  | 6 => setRing s .fibre (clearRing (s.txSize .fibre))
  | 10 => setRing s .radio (clearRing (s.txSize .radio))
  | _ => s

/-- A taken standby policy setting (R112). -/
def takeStandby (v : Word) (s : State) : State :=
  let p := standbyOf v.toNat
  if p = s.sdc.settings.radio.standby then s
  else
    let s1 : State := { s with sdc.settings.radio.standby := p }
    match p with
    | .onDemand => settleWork (if s1.swc.service = some .fibre then startKeep s1 else evalStandby s1)
    | .alwaysOn => settleWork (stopKeep s1)

/-- The METERING item of a cap (R148). -/
def capItem : Cap → Nat
  | .soft => 0
  | .hard => 1

/-- A taken cap setting: stored, and the regime computed (R148). -/
def takeCap (c : Cap) (v : Word) (s : State) : State :=
  settleWork (computeRegime
    { s with sdc.settings.metering := storeMetering s.sdc.settings.metering (capItem c) v.toNat })

/-- A taken pool ceiling setting: stored, and the pool clipped to it (R154). -/
def takeCeiling (v : Word) (s : State) : State :=
  let m := storeMetering s.sdc.settings.metering 5 v.toNat
  { s with sdc.settings.metering := m, umt.pool := min s.umt.pool m.ceiling }

/-- A taken meter preset (R146): it replaces one word of a meter, and the regime is computed. -/
def takePreset (index : BitVec 8) (v : Word) (s : State) : State :=
  let k := index.toNat
  computeRegime
    (if k < 4 then { s with umt.tx := setWord64 s.umt.tx k v } else { s with umt.rx := setWord64 s.umt.rx (k - 4) v })

/-! ### Command items (R180) -/

/-- START is refused outside CONFIG, and when the geometry fails (R188). -/
def startRefusal (s : State) : Option RefusalCause :=
  if s.pcf.part ≠ .config then some .state
  else if s.geo.accepted = false then some .geometry
  else none

/-- START taken: the tables are sized, the part is STARTING and the first read of the sequence is requested (R188). -/
def takeStart (s : State) : State :=
  let s1 : State :=
    { s with
      pcf.part := .starting
      tsm := emptyTsm s.svcTxSize
      ple := emptyPle s.ple.copyBuf (s.txSize .fibre) (s.txSize .radio)
      rmu := emptyRmu s.svcRxSize }
  requestShort s1 (startReadAccess s1 0)

/-- HALT is refused outside ACTIVE (R180). -/
def haltRefusal (s : State) : Option RefusalCause := if s.pcf.part = .active then none else some .state

/-- RECONFIGURE is refused in STARTING and ACTIVE (R180). -/
def reconfigureRefusal (s : State) : Option RefusalCause :=
  match s.pcf.part with
  | .config => none
  | .halted => none
  | .starting => some .state
  | .active => some .state

/-- A far cycle in flight is cut off from every table (R190). -/
def voidPort : FarPort → FarPort
  | .part a => .part { a with void := true }
  | .free => .free
  | .nearRun l => .nearRun l
  | .nearHeld w => .nearHeld w
  | .nearOrphan w => .nearOrphan w

/-- RECONFIGURE taken (R190, R45, R74, R90, R138, R171). -/
def takeReconfigure (s : State) : State :=
  let s1 := stopWait (clearActivity s)
  { s1 with
    pcf.part := .config
    tsm := emptyTsm s.svcTxSize
    ple := emptyPle s.ple.copyBuf (s.txSize .fibre) (s.txSize .radio)
    rmu := emptyRmu s.svcRxSize
    swc.list := []
    fsp.port := voidPort s.fsp.port
    fsp.list := []
    fsp.copyReq := none
    fsp.reissue := none
    fsp.streak := 0 }

/-- The path a FORCE_PATH value names (R126). -/
def forcedPath (v : Word) : Option Path :=
  if v = 1 then some .fibre else if v = 2 then some .radio else none

/-- FORCE_PATH 1 or 2 is refused by the first line of R126's table that applies; 0 is always taken. -/
def forceRefusal (v : Word) (s : State) : Option RefusalCause :=
  match forcedPath v with
  | none => none
  | some p =>
    if s.pcf.part ≠ .active then some .state
    else if s.swc.state = .migrating then some .busy
    else if s.swc.emergency.flag = true then some .guarded
    else if s.isUp p = false then some .state
    else none

/-- FORCE_PATH taken (R126). -/
def takeForce (v : Word) (s : State) : State :=
  match forcedPath v with
  | none => settleWork (failbackTest { s with swc.force := none })
  | some p =>
    let s1 : State := { s with swc.force := some p }
    if s1.swc.service = some p then (if s1.swc.state = .waiting then endWait s1 else s1)
    else settleWork (startMigration (stopWait s1) (some p) .forced)

/-- FAILBACK_NOW is refused by the first line of R125's table that applies. -/
def failbackNowRefusal (s : State) : Option RefusalCause :=
  if s.pcf.part ≠ .active then some .state
  else if s.swc.state = .migrating then some .busy
  else if s.swc.emergency.flag = true then some .guarded
  else if s.swc.service ≠ some .radio ∨ s.isUp .fibre = false then some .state
  else none

/-- FAILBACK_NOW taken (R125). -/
def takeFailbackNow (s : State) : State :=
  settleWork (startMigration (stopWait { s with swc.force := none }) (some .fibre) .failback)

/-- FAILBACK_MODE taken (R124): 0 is AUTO, 1 is MANUAL. -/
def takeFailbackMode (v : Word) (s : State) : State :=
  if v = 0 then settleWork (failbackTest { s with swc.mode := .auto, pmn.flaps := [] })
  else
    let s1 : State := { s with swc.mode := .manual }
    if s1.swc.state = .waiting then raiseAlert (endWait s1) .failbackHeld else s1

/-- RADIO_RESTART is refused in POWERED and CYCLING (R111). -/
def radioRestartRefusal (s : State) : Option RefusalCause :=
  match s.pmn.power.phase with
  | .failed => none
  | .standby => none
  | .powered => some .state
  | .cycling => some .state

/-- RADIO_RESTART taken (R111): under ON_DEMAND with FIBRE serving, the keep timer starts. -/
def takeRadioRestart (s : State) : State :=
  let s1 := powerUp { s with pmn.power.retry := 0 }
  if s1.sdc.settings.radio.standby = .onDemand ∧ s1.swc.service = some .fibre then startKeep s1 else s1

/-- PERIOD_RESTART taken (R145). -/
def takePeriodRestart (s : State) : State := settleWork (computeRegime { s with umt.tx := 0, umt.rx := 0 })

/-- CLEAR_ALERTS taken (R195). -/
def takeClearAlerts (s : State) : State :=
  { s with pcf.pending := s.pcf.pending &&& ~~~ s.sdc.seen, sdc.seen := 0 }

/-- CLEAR_FAULTS taken (R191, R176). -/
def takeClearFaults (s : State) : State :=
  { s with
    pcf.first := none
    pcf.last := none
    pcf.counts := ⟨0, 0, 0, 0⟩
    sdc.refusal := emptyRefusal }

/-- ALERT_ENABLE taken (R194). -/
def takeAlertEnable (v : Word) (s : State) : State := { s with pcf.mask := v.setWidth 7 }

/-- The refusal of a command item by its owner (R181). -/
def commandRefusal (item : Nat) (v : Word) (s : State) : Option RefusalCause :=
  match item with
  | 0 => startRefusal s
  | 1 => haltRefusal s
  | 2 => reconfigureRefusal s
  | 3 => forceRefusal v s
  | 4 => failbackNowRefusal s
  | 6 => radioRestartRefusal s
  | _ => none

/-- A taken command item (R180). -/
def takeCommand (item : Nat) (v : Word) (s : State) : State :=
  match item with
  | 0 => takeStart s
  | 1 => enterHalted s
  | 2 => takeReconfigure s
  | 3 => takeForce v s
  | 4 => takeFailbackNow s
  | 5 => takeFailbackMode v s
  | 6 => takeRadioRestart s
  | 7 => takePeriodRestart s
  | 8 => takeClearAlerts s
  | 9 => takeClearFaults s
  | 10 => takeAlertEnable v s
  | _ => s

/-- A taken METERING setting (R146, R148, R153, R154). -/
def takeMetering (item : Nat) (index : BitVec 8) (v : Word) (s : State) : State :=
  match item with
  | 0 => takeCap .soft v s
  | 1 => takeCap .hard v s
  | 5 => takeCeiling v s
  | 6 => takePreset index v s
  | _ =>
    let s1 : State := { s with sdc.settings.metering := storeMetering s.sdc.settings.metering item v.toNat }
    if item = 4 then expireIf s1.refillDue refill s1 else s1

/-- A taken setting write, by its group and item: stored, and handed to its owner (R172, R177). -/
def takeSetting (addr : Addr) (v : Word) (s : State) : State :=
  let i := (settingItem addr).toNat
  let x := settingIndex addr
  match (settingGroup addr).toNat with
  | 0 => { s with sdc.settings.bus := storeBus s.sdc.settings.bus i v.toNat }
  | 1 => resizeTables { s with sdc.settings.geometry := storeGeometry s.sdc.settings.geometry i v } i
  | 2 =>
    { s with
      sdc.settings.policy := s.sdc.settings.policy.set x.toNat
        (storePolicy (s.sdc.settings.policy.getD x.toNat (defaultPolicy x.toNat)) x.toNat i v) }
  | 3 => afterTiming { s with sdc.settings.timing := storeTiming s.sdc.settings.timing i v.toNat } i
  | 4 =>
    if i = 0 then takeStandby v s
    else afterRadio { s with sdc.settings.radio := storeRadio s.sdc.settings.radio i v.toNat } i
  | 5 => takeMetering i x v s
  | 6 => takeCommand i v s
  | _ => s

/-- The owner's refusal of a setting write: command items only (R181). -/
def settingRefusal (addr : Addr) (v : Word) (s : State) : Option RefusalCause :=
  if (settingGroup addr).toNat = 6 then commandRefusal (settingItem addr).toNat v s else none

/-! ### Reads (R182 to R185) -/

/-- A number as a bus word. -/
def wordOf (n : Nat) : Word := BitVec.ofNat 16 n

/-- A mark as a bus word. -/
def flagWord (b : Bool) : Word := if b then 1 else 0

/-- Code of a path or none: 0 NONE, 1 FIBRE, 2 RADIO (R139, R183, R185). -/
def pathCode : Option Path → Word
  | none => 0
  | some .fibre => 1
  | some .radio => 2

/-- Code of a health state (R92). -/
def healthCode : Health → Word
  | .off => 0
  | .down => 1
  | .trial => 2
  | .up => 3
  | .failed => 4

/-- Code of a down cause (R183). -/
def causeCode : DownCause → Word
  | .none => 0
  | .stall => 1
  | .silence => 2
  | .light => 3
  | .detach => 4
  | .powerCycle => 5
  | .terminalIndex => 6

/-- Code of a sequencer phase (R183). -/
def phaseCode : PowerPhase → Word
  | .standby => 0
  | .powered => 1
  | .cycling => 2
  | .failed => 3

/-- Code of a switch state (R183). -/
def switchCode : SwitchState → Word
  | .steady => 0
  | .waiting => 1
  | .migrating => 2

/-- Code of a regime (R140). -/
def regimeCode : Regime → Word
  | .normal => 0
  | .soft => 1
  | .hard => 2
  | .battery => 3

/-- Code of a part state (R187). -/
def partCode : PartState → Word
  | .config => 0
  | .starting => 1
  | .active => 2
  | .halted => 3

/-- Code of an entry state (R20). -/
def txStateCode : TxState → Nat
  | .free => 0
  | .posted => 1
  | .placing => 2
  | .placed => 3
  | .fetched => 4
  | .withdrawing => 5
  | .deferred => 6
  | .done => 7
  | .skipped => 8

/-- Code of a refusal cause (R176). -/
def refusalCode : RefusalCause → Word
  | .none => 0
  | .guard => 1
  | .unknown => 2
  | .busy => 3
  | .state => 4
  | .guarded => 5
  | .geometry => 6
  | .burst => 7

/-- Code of a fault class (R185). -/
def classCode : FaultClass → Word
  | .notice => 1
  | .path => 2
  | .transfer => 3
  | .integrity => 4

/-- Code of a fault cause (R185). -/
def faultCode : FaultCause → Word
  | .lateWrite => 1
  | .postOverrun => 2
  | .reclaimOverrun => 3
  | .releaseOverrun => 4
  | .guardedWrite => 5
  | .settingRefused => 6
  | .strayCompletion => 7
  | .invalidDescriptor => 8
  | .deferralFull => 9
  | .pathDown => 10
  | .terminalIndex => 11
  | .attachTimeout => 12
  | .radioFailed => 13
  | .flapLimit => 14
  | .noPath => 15
  | .farTimeout => 16
  | .farTimeoutRepeated => 17
  | .timeoutInSwitch => 18

/-- The low word of a 32-bit value. -/
def lowWord (v : BitVec 32) : Word := v.extractLsb' 0 16

/-- The high word of a 32-bit value. -/
def highWord (v : BitVec 32) : Word := v.extractLsb' 16 16

/-- A field of a fault record, or of an empty one (R185). -/
def recordField (r : Option FaultRec) (index : Nat) : Word :=
  match r with
  | none => if index = 3 then 0xFFFF else 0
  | some f =>
    match index with
    | 0 => classCode f.cls
    | 1 => faultCode f.cause
    | 2 => pathCode f.path
    | 3 => (f.slot.map wordOf).getD 0xFFFF
    | 4 => lowWord f.time
    | _ => highWord f.time

/-- Occupancy count of a state code (R19, R20). -/
def State.occupancyCount (s : State) (code : Nat) : Nat :=
  (s.tsm.entries.filter (fun e => decide (txStateCode e.state = code))).length

/-- A field of a path record (R183). -/
def recordWord (r : PathRecord) (index : Nat) : Word :=
  match index with
  | 0 => healthCode r.health
  | 1 => wordOf r.grade
  | 2 => causeCode r.cause
  | 3 => wordOf r.trial
  | 4 => wordOf r.silence
  | 5 => wordOf r.downs
  | _ => wordOf r.trials

/-- A STATUS item (R183); the latch of item 12 and the seen set of item 7 are `takeReadEffect`. -/
def statusWord (s : State) (item index : Nat) : Word :=
  match item with
  | 0 => Config.identity
  | 1 => Config.revision
  | 2 => partCode s.pcf.part
  | 3 =>
    match index with
    | 0 => pathCode s.swc.service
    | 1 => switchCode s.swc.state
    | 2 => pathCode (s.swc.target.getD none)
    | 3 => flagWord s.swc.voice.flag
    | 4 => flagWord s.swc.emergency.flag
    | 5 => wordOf s.swc.failovers
    | _ => wordOf s.swc.failbacks
  | 4 => recordWord (s.pathRec .fibre) index
  | 5 =>
    match index with
    | 7 => phaseCode s.pmn.power.phase
    | 8 => wordOf s.pmn.power.retry
    | _ => recordWord (s.pathRec .radio) index
  | 6 => regimeCode s.umt.regime
  | 7 => s.pcf.pending.setWidth 16
  | 8 => wordOf (s.occupancyCount index)
  | 9 => wordOf s.umt.pool
  | 10 => wordOf s.ple.deferralQ.length
  | 11 => wordOf s.pmn.flaps.length
  | 12 => if index = 0 then lowWord s.clock.uptime else highWord s.sdc.uptimeHold
  | _ =>
    match index with
    | 0 => refusalCode s.sdc.refusal.cause
    | 1 => s.sdc.refusal.group.setWidth 16
    | 2 => s.sdc.refusal.item.setWidth 16
    | 3 => s.sdc.refusal.index.setWidth 16
    | 4 => wordOf (tagCode s.sdc.refusal.tag)
    | _ => if s.sdc.refusal.dir = .write then 1 else 0

/-- A METER READS item (R143, R144). -/
def meterWord (s : State) (item index : Nat) : Word :=
  match item with
  | 0 =>
    if index = 0 then word64 s.umt.tx 0
    else if index < 4 then word64 s.umt.holdTx index
    else word64 s.umt.holdRx (index - 4)
  | _ => if index = 0 then lowWord s.umt.summary else highWord s.umt.latch

/-- A FAULT READS item (R185). -/
def faultWord (s : State) (item index : Nat) : Word :=
  match item with
  | 0 => if index = 0 then recordField s.pcf.first 0 else recordField s.sdc.firstHold index
  | 1 => if index = 0 then recordField s.pcf.last 0 else recordField s.sdc.lastHold index
  | _ =>
    match index with
    | 1 => wordOf s.pcf.counts.notice
    | 2 => wordOf s.pcf.counts.path
    | 3 => wordOf s.pcf.counts.transfer
    | _ => wordOf s.pcf.counts.integrity

/-- A BUS item (R182). -/
def busWord (b : BusSettings) (item : Nat) : Word :=
  match item with
  | 0 => wordOf b.length
  | 1 => wordOf b.order
  | _ => wordOf b.polarity

/-- A GEOMETRY item (R178, R182). -/
def geometryWord (g : Geometry) (item : Nat) : Word :=
  match item with
  | 0 => g.svcTx.base.value
  | 1 => wordOf g.svcTx.size
  | 2 => g.svcRx.base.value
  | 3 => wordOf g.svcRx.size
  | 4 => g.header.value
  | 5 => g.tx.fibre.base.value
  | 6 => wordOf g.tx.fibre.size
  | 7 => g.rx.fibre.base.value
  | 8 => wordOf g.rx.fibre.size
  | 9 => g.tx.radio.base.value
  | 10 => wordOf g.tx.radio.size
  | 11 => g.rx.radio.base.value
  | _ => wordOf g.rx.radio.size

/-- A POLICY item of a class (R178, R182). -/
def policyWord (p : ClassPolicy) (item : Nat) : Word :=
  match item with
  | 0 => wordOf (actionCode p.normal)
  | 1 => wordOf (actionCode p.soft)
  | 2 => wordOf (actionCode p.hard)
  | 3 => wordOf (actionCode p.battery)
  | 4 => p.fibreLabel
  | 5 => p.radioLabel
  | _ => flagWord p.metered

/-- A TIMING item (R179, R182). -/
def timingWord (t : Timing) (item : Nat) : Word :=
  wordOf
    (match item with
    | 0 => t.heartbeat
    | 1 => t.silence.fibre
    | 2 => t.silence.radio
    | 3 => t.confirm.fibre
    | 4 => t.confirm.radio
    | 5 => t.stall
    | 6 => t.trial1
    | 7 => t.trial2
    | 8 => t.trial3
    | 9 => t.radioTrial
    | 10 => t.deferralAge
    | 11 => t.voiceQuiet
    | 12 => t.emergencyQuiet
    | 13 => t.failbackWait
    | 14 => t.flapWindow
    | _ => t.flapLimit)

/-- A RADIO item (R179, R182). -/
def radioWord (r : RadioSettings) (item : Nat) : Word :=
  match item with
  | 0 => if r.standby = .onDemand then 1 else 0
  | 1 => wordOf r.attach
  | 2 => wordOf r.powerOff
  | 3 => wordOf r.retry
  | 4 => wordOf r.keep
  | _ => wordOf r.mainsConfirm

/-- A METERING item; the preset item reads 0 (R146, R182). -/
def meteringWord (m : Metering) (item : Nat) : Word :=
  match item with
  | 0 => wordOf m.softCap
  | 1 => wordOf m.hardCap
  | 2 => wordOf m.unit
  | 3 => wordOf m.amount
  | 4 => wordOf m.period
  | 5 => wordOf m.ceiling
  | _ => 0

/-- A COMMAND item: 0, but for FORCE_PATH, FAILBACK_MODE and ALERT_ENABLE (R182). -/
def commandWord (s : State) (item : Nat) : Word :=
  match item with
  | 3 => pathCode s.swc.force
  | 5 => if s.swc.mode = .manual then 1 else 0
  | 10 => s.pcf.mask.setWidth 16
  | _ => 0

/-- The answer of a taken read (R172, R182 to R185). -/
def readWord (s : State) (group item index : Nat) : Word :=
  match group with
  | 0 => busWord s.sdc.settings.bus item
  | 1 => geometryWord s.geo item
  | 2 => policyWord (s.sdc.settings.policy.getD index (defaultPolicy index)) item
  | 3 => timingWord s.sdc.settings.timing item
  | 4 => radioWord s.sdc.settings.radio item
  | 5 => meteringWord s.sdc.settings.metering item
  | 6 => commandWord s item
  | 8 => statusWord s item index
  | 9 => meterWord s item index
  | _ => faultWord s item index

/-- What a taken read latches (R143, R144, R183 to R185). -/
def takeReadEffect (s : State) (group item index : Nat) : State :=
  match group, item with
  | 8, 7 => { s with sdc.seen := s.pcf.pending }
  | 8, 12 => if index = 0 then { s with sdc.uptimeHold := s.clock.uptime } else s
  | 9, 0 => if index = 0 then { s with umt.holdTx := s.umt.tx, umt.holdRx := s.umt.rx } else s
  | 9, 1 => if index = 0 then { s with umt.latch := s.umt.summary } else s
  | 10, 0 => if index = 0 then { s with sdc.firstHold := s.pcf.first } else s
  | 10, 1 => if index = 0 then { s with sdc.lastHold := s.pcf.last } else s
  | _, _ => s

/-- A setting read cycle (R172, R176, R182 to R186): refused, or answered and latched; during the settle it returns 0 and
latches nothing. -/
def readCycle (s : State) (tag : Tag) (addr : Addr) : State :=
  if s.cycleFits .read false tag addr then
    let s1 : State := { s with nsi.near := none }
    if s1.settle.isSome then { s1 with nsi.dataOut := 0 }
    else
      match judgeRead tag addr with
      | some c => refuse s1 c tag addr .read
      | none =>
        let g := (settingGroup addr).toNat
        let i := (settingItem addr).toNat
        let x := (settingIndex addr).toNat
        { takeReadEffect s1 g i x with nsi.dataOut := readWord s1 g i x }
  else s

/-- A near burst made with CFGN low (R174, R186): refused whole, with cause BURST; its reads return 0. -/
def burstCycle (s : State) (tag : Tag) (addr : Addr) (dir : Dir) : State :=
  if s.cycleFits dir true tag addr then
    let s1 : State := { s with nsi.near := none }
    if s1.settle.isSome then (if dir = .read then { s1 with nsi.dataOut := 0 } else s1)
    else refuse s1 .burst tag addr dir
  else s

end Sys2Proof.Machine
end

