-- ==== Sys2Proof/Machine/Timers.lean ====
section
/-! DEFINITION. The meanings of the line changes, timer expiries and ticks. A command that names an expiry acts where its
timer runs, whatever time has elapsed (log 3), and nothing happens while RSTN is low. -/

namespace Sys2Proof.Machine

/-- An event of a running timer: `act`, and the part's own work. -/
def expiry (s : State) (runs : Bool) (act : State → State) : State :=
  if s.rstn && runs then settleWork (act s) else s

/-! ### Lines -/

/-- The level of a path's line. -/
def Lines.level (l : Lines) : Path → Bool
  | .fibre => l.losn
  | .radio => l.ratt

/-- Set the level of a path's line. -/
def Lines.setLevel (l : Lines) (p : Path) (b : Bool) : Lines :=
  match p with
  | .fibre => { l with losn := b }
  | .radio => { l with ratt := b }

/-- A path's line moves to a level: high is its good level (R98). -/
def moveLine (s : State) (p : Path) (level : Bool) : State :=
  if s.lines.level p = level then s
  else
    let s1 : State := { s with lines := s.lines.setLevel p level }
    if s.rstn then settleWork (if level then lineRises s1 p else lineFalls s1 p) else s1

/-- MAINS moves to a level: high is present (R147). -/
def moveMains (s : State) (level : Bool) : State :=
  if s.lines.mains = level then s
  else
    let s1 : State := { s with lines.mains := level }
    if s.rstn then settleWork (if level then mainsRises s1 else mainsFalls s1) else s1

/-! ### Conditions under which a timer runs -/

/-- A path's confirm timer runs. -/
def State.confirmRuns (s : State) (p : Path) : Bool :=
  match (s.pathRec p).line with
  | .falling _ => true
  | .good => false
  | .bad => false

/-- The mains confirm timer runs. -/
def State.mainsRuns (s : State) : Bool :=
  match s.umt.mains with
  | .falling _ => true
  | .present => false
  | .absent => false

/-- The failback wait timer runs towards a non-zero wait time (R123). -/
def State.waitRuns (s : State) : Bool := s.swc.wait.isSome && decide (s.sdc.settings.timing.failbackWait ≠ 0)

/-! ### Ticks (R68, R104, R196) -/

/-- The deferral age check runs: ACTIVE with a limit that is not 0 (R68). -/
def State.ageChecked (s : State) : Bool :=
  decide (s.pcf.part = .active) && decide (s.sdc.settings.timing.deferralAge ≠ 0)

/-- A deferral record has reached the age limit (R68). -/
def State.tooOld (s : State) (r : DeferralRec) : Bool :=
  decide (s.sdc.settings.timing.deferralAge * 1000 ≤ ageOf s.clock.uptime r.time)

/-- A record expires: it leaves the queue, and its entry becomes SKIPPED with status 9 (R68). -/
def expireRecord (s : State) (r : DeferralRec) : State := skipEntry (removeRecord s r.slot) r.slot 9

/-- The 1-second tick: the records past the age limit expire in post order (R68). -/
def deferralTick (s : State) : State :=
  let s1 : State := { s with clock.secDue := false }
  if s.ageChecked then (s.ple.deferralQ.filter s.tooOld).foldl expireRecord s1 else s1

/-- The 1-minute tick: flap entries older than the window leave (R104). -/
def flapTick (s : State) : State :=
  { s with
    clock.minDue := false
    pmn.flaps := expireFlaps s.clock.uptime s.sdc.settings.timing.flapWindow s.pmn.flaps }

/-! ### The meanings -/

/-- LINE_CHANGE (R97, R98). -/
def execLineChange (path : Path) (level : Bool) (s : State) : Host.Outcome State Fault Refusal :=
  .next (moveLine s path level)

/-- CONFIRM_TIMER_EXPIRY (R98). -/
def execConfirmTimerExpiry (path : Path) (s : State) : Host.Outcome State Fault Refusal :=
  .next (expiry s (s.confirmRuns path) (fun t => badConfirm t path))

/-- HEARTBEAT_INTERVAL_END (R94). -/
def execHeartbeatIntervalEnd (s : State) : Host.Outcome State Fault Refusal := .next (expiry s true heartbeatEnd)

/-- STALL_TIMER_EXPIRY (R99). -/
def execStallTimerExpiry (path : Path) (s : State) : Host.Outcome State Fault Refusal :=
  .next (expiry s (s.pathRec path).stall.isSome (fun t => stallExpires t path))

/-- ATTACH_TIMER_EXPIRY (R108). -/
def execAttachTimerExpiry (s : State) : Host.Outcome State Fault Refusal :=
  .next (expiry s s.pmn.power.attach.isSome attachExpires)

/-- POWER_OFF_TIMER_EXPIRY (R109). -/
def execPowerOffTimerExpiry (s : State) : Host.Outcome State Fault Refusal :=
  .next (if s.rstn && s.pmn.power.off.isSome then powerOffExpires s else s)

/-- KEEP_TIMER_EXPIRY (R107). -/
def execKeepTimerExpiry (s : State) : Host.Outcome State Fault Refusal :=
  .next (if s.rstn && s.pmn.power.keep.isSome then stopKeep s else s)

/-- FLAP_EXPIRY (R104). -/
def execFlapExpiry (s : State) : Host.Outcome State Fault Refusal := .next (if s.rstn then flapTick s else s)

/-- DEFERRAL_EXPIRY (R68). -/
def execDeferralExpiry (s : State) : Host.Outcome State Fault Refusal := .next (if s.rstn then deferralTick s else s)

/-- QUIET_TIMER_EXPIRY (R118). -/
def execQuietTimerExpiry (activity : Activity) (s : State) : Host.Outcome State Fault Refusal :=
  .next (expiry s (s.activity activity).timer.isSome (fun t => quietExpires t activity))

/-- FAILBACK_WAIT_EXPIRY (R123). -/
def execFailbackWaitExpiry (s : State) : Host.Outcome State Fault Refusal := .next (expiry s s.waitRuns waitExpires)

/-- MAINS_CHANGE (R147). -/
def execMainsChange (level : Bool) (s : State) : Host.Outcome State Fault Refusal := .next (moveMains s level)

/-- MAINS_CONFIRM_EXPIRY (R147). -/
def execMainsConfirmExpiry (s : State) : Host.Outcome State Fault Refusal := .next (expiry s s.mainsRuns mainsAbsent)

/-- CREDIT_REFILL (R153). -/
def execCreditRefill (s : State) : Host.Outcome State Fault Refusal := .next (expiry s true refill)

end Sys2Proof.Machine
end

