-- ==== Sys2Proof/Machine/Clock.lean ====
section
/-! DEFINITION. The reference clock: what one REFCLK cycle advances, and the expiry that is due (R196, R186, log 4). -/

namespace Sys2Proof.Machine

/-! ### One REFCLK cycle -/

/-- One REFCLK cycle of a line's confirm timer. -/
def LineState.tick : LineState → LineState
  | .good => .good
  | .falling n => .falling (n + 1)
  | .bad => .bad

/-- One REFCLK cycle of the mains confirm timer. -/
def MainsState.tick : MainsState → MainsState
  | .present => .present
  | .falling n => .falling (n + 1)
  | .absent => .absent

/-- One REFCLK cycle of uptime: a millisecond at each 1024 cycles, with the ticks of its whole seconds and minutes
(R196). -/
def Clock.tick (c : Clock) : Clock :=
  if c.sub + 1 < Config.msCycles then { c with sub := c.sub + 1 }
  else
    let u := c.uptime + 1
    { uptime := u
      sub := 0
      secDue := c.secDue || decide (u.toNat % 1000 = 0)
      minDue := c.minDue || decide (u.toNat % 60000 = 0) }

/-- One REFCLK cycle of a path record's timers. -/
def PathRecord.tick (r : PathRecord) : PathRecord := { r with stall := r.stall.tick, line := r.line.tick }

/-- One REFCLK cycle of the sequencer's timers. -/
def Sequencer.tick (q : Sequencer) : Sequencer :=
  { q with attach := q.attach.tick, off := q.off.tick, keep := q.keep.tick }

/-- One REFCLK cycle of an activity flag's quiet timer. -/
def ActivityFlag.tick (a : ActivityFlag) : ActivityFlag := { a with timer := a.timer.tick }

/-- One REFCLK cycle of the part. -/
def tick (s : State) : State :=
  { s with
    settle := s.settle.tick
    clock := s.clock.tick
    pmn :=
      { s.pmn with
        recs := ⟨s.pmn.recs.fibre.tick, s.pmn.recs.radio.tick⟩
        beat := s.pmn.beat + 1
        power := s.pmn.power.tick }
    swc := { s.swc with voice := s.swc.voice.tick, emergency := s.swc.emergency.tick, wait := s.swc.wait.tick }
    umt := { s.umt with mains := s.umt.mains.tick, refill := s.umt.refill + 1 } }

/-! ### The expiry that is due -/

/-- The command when the condition holds. -/
def dueIf (due : Bool) (c : Instr) (rest : Option Instr) : Option Instr := if due then some c else rest

/-- The settle has run its 205 cycles (R186). -/
def State.settleDue (s : State) : Bool := Timer.reached s.settle Config.settleCycles

/-- The heartbeat interval under way has reached its length (R94). -/
def State.beatDue (s : State) : Bool := decide (ms (s.pmn.beatLen * 100) ≤ s.pmn.beat)

/-- The expiry or tick that is due, the first in the model's order (log 4). -/
def State.due (s : State) : Option Instr :=
  dueIf s.settleDue .settleEnd <|
  dueIf (s.confirmDue .fibre) (.confirmTimerExpiry .fibre) <|
  dueIf (s.confirmDue .radio) (.confirmTimerExpiry .radio) <|
  dueIf s.mainsDue .mainsConfirmExpiry <|
  dueIf s.beatDue .heartbeatIntervalEnd <|
  dueIf (s.stallDue .fibre) (.stallTimerExpiry .fibre) <|
  dueIf (s.stallDue .radio) (.stallTimerExpiry .radio) <|
  dueIf s.attachDue .attachTimerExpiry <|
  dueIf s.powerOffDue .powerOffTimerExpiry <|
  dueIf s.keepDue .keepTimerExpiry <|
  dueIf s.clock.minDue .flapExpiry <|
  dueIf s.clock.secDue .deferralExpiry <|
  dueIf (s.quietDue .voice) (.quietTimerExpiry .voice) <|
  dueIf (s.quietDue .emergency) (.quietTimerExpiry .emergency) <|
  dueIf s.waitDue .failbackWaitExpiry <|
  dueIf s.refillDue .creditRefill none

/-! ### A command in front -/

/-- The queue with the command a word spells in front, where it spells one. -/
def putFront (found : Option Instr) (queue : List Instr) : List Instr :=
  match found with
  | none => queue
  | some c => c :: queue

end Sys2Proof.Machine
end

