-- ==== Sys2Proof/Machine/Commands.lean ====
section
/-! DEFINITION. The meanings of the command items (R180, R181). -/

namespace Sys2Proof.Machine

/-- START (R188): COMMAND item 0. -/
def execStart (tag : Tag) (index : BitVec 8) (value : Word) (s : State) : Host.Outcome State Fault Refusal :=
  .next (writeCycle s tag (settingAddr 6 0 index) value startRefusal takeStart)

/-- HALT (R189): COMMAND item 1. -/
def execHalt (tag : Tag) (index : BitVec 8) (value : Word) (s : State) : Host.Outcome State Fault Refusal :=
  .next (writeCycle s tag (settingAddr 6 1 index) value haltRefusal enterHalted)

/-- RECONFIGURE (R190): COMMAND item 2. -/
def execReconfigure (tag : Tag) (index : BitVec 8) (value : Word) (s : State) : Host.Outcome State Fault Refusal :=
  .next (writeCycle s tag (settingAddr 6 2 index) value reconfigureRefusal takeReconfigure)

/-- FORCE_PATH (R126): COMMAND item 3. -/
def execForcePath (tag : Tag) (index : BitVec 8) (value : Word) (s : State) : Host.Outcome State Fault Refusal :=
  .next (writeCycle s tag (settingAddr 6 3 index) value (forceRefusal value) (takeForce value))

/-- FAILBACK_NOW (R125): COMMAND item 4. -/
def execFailbackNow (tag : Tag) (index : BitVec 8) (value : Word) (s : State) : Host.Outcome State Fault Refusal :=
  .next (writeCycle s tag (settingAddr 6 4 index) value failbackNowRefusal takeFailbackNow)

/-- FAILBACK_MODE (R124): COMMAND item 5. -/
def execFailbackMode (tag : Tag) (index : BitVec 8) (value : Word) (s : State) : Host.Outcome State Fault Refusal :=
  .next (writeCycle s tag (settingAddr 6 5 index) value noRefusal (takeFailbackMode value))

/-- RADIO_RESTART (R111): COMMAND item 6. -/
def execRadioRestart (tag : Tag) (index : BitVec 8) (value : Word) (s : State) : Host.Outcome State Fault Refusal :=
  .next (writeCycle s tag (settingAddr 6 6 index) value radioRestartRefusal takeRadioRestart)

/-- PERIOD_RESTART (R145): COMMAND item 7. -/
def execPeriodRestart (tag : Tag) (index : BitVec 8) (value : Word) (s : State) : Host.Outcome State Fault Refusal :=
  .next (writeCycle s tag (settingAddr 6 7 index) value noRefusal takePeriodRestart)

/-- CLEAR_ALERTS (R195): COMMAND item 8. -/
def execClearAlerts (tag : Tag) (index : BitVec 8) (value : Word) (s : State) : Host.Outcome State Fault Refusal :=
  .next (writeCycle s tag (settingAddr 6 8 index) value noRefusal takeClearAlerts)

/-- CLEAR_FAULTS (R191): COMMAND item 9. -/
def execClearFaults (tag : Tag) (index : BitVec 8) (value : Word) (s : State) : Host.Outcome State Fault Refusal :=
  .next (writeCycle s tag (settingAddr 6 9 index) value noRefusal takeClearFaults)

/-- ALERT_ENABLE (R194): COMMAND item 10. -/
def execAlertEnable (tag : Tag) (index : BitVec 8) (value : Word) (s : State) : Host.Outcome State Fault Refusal :=
  .next (writeCycle s tag (settingAddr 6 10 index) value noRefusal (takeAlertEnable value))

end Sys2Proof.Machine
end

