-- ==== Sys2Proof/Machine/FarPort.lean ====
section
/-! DEFINITION. The meanings of the far port's commands: grants, the hold limit and the completions of the part's far
cycles (R33, R36, R41, R49, R59, R165, R167, R188). -/

namespace Sys2Proof.Machine

/-- FAR_GRANT (R165). -/
def execFarGrant (s : State) : Host.Outcome State Fault Refusal :=
  .next (if s.rstn then syncStreak (grantPort s) else s)

/-- FAR_HOLD_LIMIT (R167 to R170). -/
def execFarHoldLimit (s : State) : Host.Outcome State Fault Refusal := .next (holdLimit s)

/-- PLACEMENT_READ_COMPLETE (R49). -/
def execPlacementReadComplete (words : Descriptor) (s : State) : Host.Outcome State Fault Refusal :=
  .next (completeAccess s .placementRead (readDone words))

/-- PUBLICATION (R59). -/
def execPublication (s : State) : Host.Outcome State Fault Refusal := .next (completeAccess s .copy copyDone)

/-- WITHDRAWAL_WRITE_COMPLETE (R41). -/
def execWithdrawalWriteComplete (s : State) : Host.Outcome State Fault Refusal :=
  .next (completeAccess s .withdrawal withdrawalDone)

/-- MIRROR_WRITE_COMPLETE (R33). -/
def execMirrorWriteComplete (s : State) : Host.Outcome State Fault Refusal :=
  .next (completeAccess s .mirror serviceWriteDone)

/-- FINAL_WRITE_COMPLETE (R36). -/
def execFinalWriteComplete (s : State) : Host.Outcome State Fault Refusal :=
  .next (completeAccess s .final serviceWriteDone)

/-- HEADER_WRITE_COMPLETE (R16): the port is free again, and no table changes. -/
def execHeaderWriteComplete (s : State) : Host.Outcome State Fault Refusal :=
  .next (completeAccess s .header (fun t _ => t))

/-- START_READ_COMPLETE (R188). -/
def execStartReadComplete (value : Word) (s : State) : Host.Outcome State Fault Refusal :=
  .next (completeAccess s .startRead (startReadDone value))

/-- START_WRITE_COMPLETE (R188). -/
def execStartWriteComplete (s : State) : Host.Outcome State Fault Refusal :=
  .next (completeAccess s .startWrite startWriteDone)

end Sys2Proof.Machine
end

