-- ==== Sys2Proof/Machine/Near.lean ====
section
/-! DEFINITION. The meanings of the near bus commands (R156 to R161). -/

namespace Sys2Proof.Machine

/-- The word the near cycle presents reaches the far port, and the part's own work follows; nothing while RSTN is low. -/
def nearGrant (s : State) (data : Word) (fhold : Bool) : State :=
  if s.rstn then settleWork (nearWord s data fhold) else s

/-- NEAR_CYCLE_BEGIN (R156). -/
def execNearCycleBegin (addr : Addr) (dir : Dir) (burst : Bool) (tag : Tag) (cfgn msetn : Bool) (s : State) :
    Host.Outcome State Fault Refusal := .next (beginCycle s (latchCycle addr dir burst tag cfgn msetn))

/-- NEAR_WORD_GRANT (R159). -/
def execNearWordGrant (data : Word) (fhold : Bool) (s : State) : Host.Outcome State Fault Refusal :=
  .next (nearGrant s data fhold)

/-- SEL_RISE (R158). -/
def execSelRise (s : State) : Host.Outcome State Fault Refusal := .next (endCycle s)

end Sys2Proof.Machine
end

