-- ==== Sys2Proof/Machine/Reads.lean ====
section
/-! DEFINITION. The meanings of the setting reads (R143, R144, R176, R182 to R185). -/

namespace Sys2Proof.Machine

/-- METER_SNAPSHOT_READ (R143): METER READS item 0, index 0. -/
def execMeterSnapshotRead (tag : Tag) (s : State) : Host.Outcome State Fault Refusal :=
  .next (readCycle s tag (settingAddr 9 0 0))

/-- SUMMARY_LATCH_READ (R144): METER READS item 1, index 0. -/
def execSummaryLatchRead (tag : Tag) (s : State) : Host.Outcome State Fault Refusal :=
  .next (readCycle s tag (settingAddr 9 1 0))

/-- UPTIME_LATCH_READ (R183): STATUS item 12, index 0. -/
def execUptimeLatchRead (tag : Tag) (s : State) : Host.Outcome State Fault Refusal :=
  .next (readCycle s tag (settingAddr 8 12 0))

/-- The FAULT READS item of a record as a setting address field. -/
def recordItem : RecordSel → BitVec 4
  | .first => 0
  | .last => 1

/-- FAULT_RECORD_LATCH_READ (R185): FAULT READS item 0 or 1, index 0. -/
def execFaultRecordLatchRead (sel : RecordSel) (tag : Tag) (s : State) : Host.Outcome State Fault Refusal :=
  .next (readCycle s tag (settingAddr 10 (recordItem sel) 0))

/-- ALERT_PENDING_READ (R184): STATUS item 7. -/
def execAlertPendingRead (tag : Tag) (index : BitVec 8) (s : State) : Host.Outcome State Fault Refusal :=
  .next (readCycle s tag (settingAddr 8 7 index))

/-- REFUSED_SETTING_READ (R176, R182): any other setting read, refused or answered (log 16). -/
def execRefusedSettingRead (tag : Tag) (addr : Addr) (s : State) : Host.Outcome State Fault Refusal :=
  .next (readCycle s tag addr)

end Sys2Proof.Machine
end

