-- ==== Sys2Proof/Machine/Reset.lean ====
section
/-! DEFINITION. The meanings of the reset line's commands and of the end of the settle (R171, R186, R187). -/

namespace Sys2Proof.Machine

/-- The settle ends (R186). -/
def endSettle (s : State) : State := { s with settle := none }

/-- RSTN rises: lines sampled and timers started, and a near cycle begun while it was low is decoded (R171, R187). -/
def releaseReset (s : State) : State :=
  let t := State.released s.lines s.pending
  { t with nsi.near := s.nsi.bus }

/-- RESET_ASSERT (R171, R187): every register takes its power-on value; RSTN that is low already is no event. -/
def execResetAssert (s : State) : Host.Outcome State Fault Refusal :=
  .next (if s.rstn then State.lowReset s.lines s.pending else s)

/-- RESET_RELEASE (R187); RSTN that is high already is no event. -/
def execResetRelease (s : State) : Host.Outcome State Fault Refusal :=
  .next (if s.rstn then s else releaseReset s)

/-- SETTLE_END (R186). -/
def execSettleEnd (s : State) : Host.Outcome State Fault Refusal := .next (endSettle s)

end Sys2Proof.Machine
end

