-- ==== Sys2Proof/Machine/Settings.lean ====
section
/-! DEFINITION. The meanings of the setting writes and bursts (R112, R146, R148, R154, R174, R177). -/

namespace Sys2Proof.Machine

/-- SETTING_WRITE (R176, R177). -/
def execSettingWrite (tag : Tag) (addr : Addr) (value : Word) (s : State) : Host.Outcome State Fault Refusal :=
  .next (writeCycle s tag addr value (settingRefusal addr value) (takeSetting addr value))

/-- SETTING_BURST (R174). -/
def execSettingBurst (tag : Tag) (addr : Addr) (dir : Dir) (s : State) : Host.Outcome State Fault Refusal :=
  .next (burstCycle s tag addr dir)

/-- STANDBY_POLICY_SETTING (R112): RADIO item 0. -/
def execStandbyPolicySetting (tag : Tag) (index : BitVec 8) (value : Word) (s : State) :
    Host.Outcome State Fault Refusal :=
  .next (writeCycle s tag (settingAddr 4 0 index) value noRefusal (takeStandby value))

/-- The METERING item of a cap as a setting address field. -/
def capField : Cap → BitVec 4
  | .soft => 0
  | .hard => 1

/-- CAP_SETTING (R148): METERING item 0 or 1. -/
def execCapSetting (cap : Cap) (tag : Tag) (index : BitVec 8) (value : Word) (s : State) :
    Host.Outcome State Fault Refusal :=
  .next (writeCycle s tag (settingAddr 5 (capField cap) index) value noRefusal (takeCap cap value))

/-- POOL_CEILING_SETTING (R154): METERING item 5. -/
def execPoolCeilingSetting (tag : Tag) (index : BitVec 8) (value : Word) (s : State) :
    Host.Outcome State Fault Refusal :=
  .next (writeCycle s tag (settingAddr 5 5 index) value noRefusal (takeCeiling value))

/-- METER_PRESET (R146): METERING item 6. -/
def execMeterPreset (tag : Tag) (index : BitVec 8) (value : Word) (s : State) : Host.Outcome State Fault Refusal :=
  .next (writeCycle s tag (settingAddr 5 6 index) value noRefusal (takePreset index value))

end Sys2Proof.Machine
end

