-- ==== Sys2Proof/Machine/Dispatch.lean ====
section
/-! DEFINITION. The meaning of each command, one arm for each constructor of Instr. -/

namespace Sys2Proof.Machine

/-- The effect of a command on everything but the queue. -/
def exec (i : Instr) (s : State) : Host.Outcome State Fault Refusal :=
  match i with
  | .resetAssert => Sys2Proof.Machine.execResetAssert s
  | .resetRelease => Sys2Proof.Machine.execResetRelease s
  | .settleEnd => Sys2Proof.Machine.execSettleEnd s
  | .nearCycleBegin addr dir burst tag cfgn msetn => Sys2Proof.Machine.execNearCycleBegin addr dir burst tag cfgn msetn s
  | .nearWordGrant data fhold => Sys2Proof.Machine.execNearWordGrant data fhold s
  | .selRise => Sys2Proof.Machine.execSelRise s
  | .settingWrite tag addr value => Sys2Proof.Machine.execSettingWrite tag addr value s
  | .settingBurst tag addr dir => Sys2Proof.Machine.execSettingBurst tag addr dir s
  | .standbyPolicySetting tag index value => Sys2Proof.Machine.execStandbyPolicySetting tag index value s
  | .capSetting cap tag index value => Sys2Proof.Machine.execCapSetting cap tag index value s
  | .poolCeilingSetting tag index value => Sys2Proof.Machine.execPoolCeilingSetting tag index value s
  | .meterPreset tag index value => Sys2Proof.Machine.execMeterPreset tag index value s
  | .meterSnapshotRead tag => Sys2Proof.Machine.execMeterSnapshotRead tag s
  | .summaryLatchRead tag => Sys2Proof.Machine.execSummaryLatchRead tag s
  | .uptimeLatchRead tag => Sys2Proof.Machine.execUptimeLatchRead tag s
  | .faultRecordLatchRead sel tag => Sys2Proof.Machine.execFaultRecordLatchRead sel tag s
  | .alertPendingRead tag index => Sys2Proof.Machine.execAlertPendingRead tag index s
  | .start tag index value => Sys2Proof.Machine.execStart tag index value s
  | .halt tag index value => Sys2Proof.Machine.execHalt tag index value s
  | .reconfigure tag index value => Sys2Proof.Machine.execReconfigure tag index value s
  | .forcePath tag index value => Sys2Proof.Machine.execForcePath tag index value s
  | .failbackNow tag index value => Sys2Proof.Machine.execFailbackNow tag index value s
  | .failbackMode tag index value => Sys2Proof.Machine.execFailbackMode tag index value s
  | .radioRestart tag index value => Sys2Proof.Machine.execRadioRestart tag index value s
  | .periodRestart tag index value => Sys2Proof.Machine.execPeriodRestart tag index value s
  | .clearAlerts tag index value => Sys2Proof.Machine.execClearAlerts tag index value s
  | .clearFaults tag index value => Sys2Proof.Machine.execClearFaults tag index value s
  | .alertEnable tag index value => Sys2Proof.Machine.execAlertEnable tag index value s
  | .farGrant => Sys2Proof.Machine.execFarGrant s
  | .farHoldLimit => Sys2Proof.Machine.execFarHoldLimit s
  | .placementReadComplete words => Sys2Proof.Machine.execPlacementReadComplete words s
  | .publication => Sys2Proof.Machine.execPublication s
  | .withdrawalWriteComplete => Sys2Proof.Machine.execWithdrawalWriteComplete s
  | .mirrorWriteComplete => Sys2Proof.Machine.execMirrorWriteComplete s
  | .finalWriteComplete => Sys2Proof.Machine.execFinalWriteComplete s
  | .headerWriteComplete => Sys2Proof.Machine.execHeaderWriteComplete s
  | .startReadComplete value => Sys2Proof.Machine.execStartReadComplete value s
  | .startWriteComplete => Sys2Proof.Machine.execStartWriteComplete s
  | .lineChange path level => Sys2Proof.Machine.execLineChange path level s
  | .confirmTimerExpiry path => Sys2Proof.Machine.execConfirmTimerExpiry path s
  | .heartbeatIntervalEnd => Sys2Proof.Machine.execHeartbeatIntervalEnd s
  | .stallTimerExpiry path => Sys2Proof.Machine.execStallTimerExpiry path s
  | .attachTimerExpiry => Sys2Proof.Machine.execAttachTimerExpiry s
  | .powerOffTimerExpiry => Sys2Proof.Machine.execPowerOffTimerExpiry s
  | .keepTimerExpiry => Sys2Proof.Machine.execKeepTimerExpiry s
  | .flapExpiry => Sys2Proof.Machine.execFlapExpiry s
  | .deferralExpiry => Sys2Proof.Machine.execDeferralExpiry s
  | .quietTimerExpiry activity => Sys2Proof.Machine.execQuietTimerExpiry activity s
  | .failbackWaitExpiry => Sys2Proof.Machine.execFailbackWaitExpiry s
  | .mainsChange level => Sys2Proof.Machine.execMainsChange level s
  | .mainsConfirmExpiry => Sys2Proof.Machine.execMainsConfirmExpiry s
  | .creditRefill => Sys2Proof.Machine.execCreditRefill s
  | .refusedSettingRead tag addr => Sys2Proof.Machine.execRefusedSettingRead tag addr s

end Sys2Proof.Machine
end

