-- ==== Sys2Proof/Machine/Step.lean ====
section
/-! DEFINITION. One step of the block: the command at the front of the queue, or, on an empty queue, the expiry that is due
or one REFCLK cycle (log 4). -/

namespace Sys2Proof.Machine

/-- A step on an empty queue: the part idles while RSTN is low; else the expiry that is due comes about, and when none is
due one REFCLK cycle passes. -/
def idleStep (s : State) : Host.Outcome State Fault Refusal :=
  if s.rstn then
    match s.due with
    | some c => exec c s
    | none => .next (tick s)
  else .next s

/-- One step: the command at the front of the queue runs on the state with the rest of the queue. -/
def step (s : State) : Host.Outcome State Fault Refusal :=
  match s.pending with
  | c :: rest => exec c { s with pending := rest }
  | [] => idleStep s

/-- The state with the command a table word spells at the front of its queue; no word spells one (Decode). -/
def State.withFetchWord (s : State) (nbits w : Nat) : State :=
  { s with pending := putFront (decodeTableWord nbits w) s.pending }

end Sys2Proof.Machine
end

