-- ==== Sys2Proof/WellFormed.lean ====
section
/-! DEFINITION. Well-formed commands: a setting cycle's command is the one of its own row (R177 to R185). Operands have
the widths of their types, so no other check is needed. -/

namespace Sys2Proof

/-- Group, item and index of a setting address (R173). -/
def Instr.settingFields (a : Addr) : Nat × Nat × Nat :=
  ((a.extractLsb' 20 4).toNat, (a.extractLsb' 16 4).toNat, (a.extractLsb' 8 8).toNat)

/-- A write of this group and item has a row of its own: RADIO item 0, METERING items 0, 1, 5 and 6, and the COMMAND
items. -/
def Instr.ownWriteRow (group item : Nat) : Bool :=
  (decide (group = 4) && decide (item = 0)) ||
    (decide (group = 5) && (decide (item ≤ 1) || decide (item = 5) || decide (item = 6))) ||
    (decide (group = 6) && decide (item ≤ 10))

/-- A read of this group, item and index has a row of its own: the alert pending item and the latching reads. -/
def Instr.ownReadRow (group item index : Nat) : Bool :=
  (decide (group = 8) && (decide (item = 7) || (decide (item = 12) && decide (index = 0)))) ||
    (decide (group = 9) && decide (item ≤ 1) && decide (index = 0)) ||
    (decide (group = 10) && decide (item ≤ 1) && decide (index = 0))

/-- A command is well formed: a SETTING_WRITE or a REFUSED_SETTING_READ names no item whose cycle is another row. -/
def Instr.wf (i : Instr) : Bool :=
  match i with
  | .settingWrite _ addr _ =>
    !Instr.ownWriteRow (Instr.settingFields addr).1 (Instr.settingFields addr).2.1
  | .refusedSettingRead _ addr =>
    !Instr.ownReadRow (Instr.settingFields addr).1 (Instr.settingFields addr).2.1 (Instr.settingFields addr).2.2
  | _ => true

end Sys2Proof
end

