-- ==== Sys2Proof/Safety.lean ====
section
/-! DEFINITION. What counts as a safe state and a safe step, and the conditions the claims are stated in. -/

namespace Sys2Proof.Machine

/-! ### When a command acts -/

/-- A setting cycle of this direction, tag and address is judged under R176 when its command comes: it can complete, and
the settle is over (R172, R186). -/
abbrev State.judges (s : State) (dir : Dir) (tag : Tag) (addr : Addr) : Prop :=
  s.cycleFits dir false tag addr = true ∧ s.settle = none

/-- A far cycle of the part of this kind is in flight, and its completion applies to the tables (R163, R190). -/
abbrev State.carries (s : State) (k : AccessKind) (a : Access) : Prop :=
  s.fsp.port = .part a ∧ a.kind = k ∧ a.void = false ∧ s.pcf.part ≠ .halted

/-- The near cycle presents a word that is passed or redirected to a far address (R159). -/
abbrev State.presents (s : State) (c : NearCycle) (fa : Addr) : Prop :=
  s.nsi.near = some c ∧ c.cfgn = true ∧ c.dead = false ∧
    (s.treatment c (s.wordAddr c c.pos)).farAddr (s.wordAddr c c.pos) = some fa

/-- A near run waits for the far port: its word is passed or redirected and ready to be granted, a write with the data word
it presents (R165, log 8). -/
def State.nearWaits (s : State) : Prop := ∃ c fa, s.presents c fa ∧ (c.dir = .read ∨ c.data ≠ none)

/-- A word at a far address goes on with the near run that holds the port (R162). -/
abbrev State.runContinues (s : State) (fa : Addr) : Prop := ∃ l, s.fsp.port = .nearRun l ∧ fa.toNat = l.toNat + 1

/-- A word at a far address waits at a port that may be granted: idle, its near run ended before the word, or left with a
word whose near cycle is gone (R162, R165, log 7). -/
abbrev State.portOpens (s : State) (fa : Addr) : Prop :=
  s.fsp.port = .free ∨ (∃ w, s.fsp.port = .nearOrphan w) ∨ ∃ l, s.fsp.port = .nearRun l ∧ fa.toNat ≠ l.toNat + 1

/-- No zero-time work of the part remains (log 18). -/
abbrev State.atRest (s : State) : Prop := workStep s = none

/-- FREE entries met one after another from the post record on, at most n (R23). -/
def State.freeRun (s : State) (n : Nat) : Nat :=
  ((List.range n).takeWhile (fun j =>
    decide ((s.entry (slotOf (s.tsm.post + BitVec.ofNat 16 j) s.svcTxSize)).state = .free))).length

/-- Entries a reclaim frees, met one after another from the reclaim record on, at most n (R25). -/
def State.doneRun (s : State) (n : Nat) : Nat :=
  ((List.range n).takeWhile (fun j =>
    (s.entry (slotOf (s.tsm.reclaim + BitVec.ofNat 16 j) s.svcTxSize)).reclaimable)).length

/-- An entry of this class, or of a class not yet known, that is older than entry i waits in a queue (R51). -/
abbrev State.hasOlder (s : State) (i : Nat) (cls : Cls) : Prop :=
  (∃ r ∈ s.ple.deferralQ, r.cls = cls ∧ s.orderOf r.seq < s.slotOrder i) ∨
    ∃ j ∈ s.ple.placementQ,
      ((s.entry j).cls = none ∨ (s.entry j).cls = some cls) ∧ s.slotOrder j < s.slotOrder i

/-- The geometry START accepts (R188): every base set, every region ending inside the address space, and no word in two
regions. -/
def Geometry.fits (g : Geometry) : Prop :=
  (∀ b ∈ [g.svcTx.base, g.svcRx.base, g.header, g.tx.fibre.base, g.rx.fibre.base, g.tx.radio.base, g.rx.radio.base],
    b.isSet = true) ∧
  (∀ r ∈ g.regions, r.1 + r.2 - 1 ≤ 0xFFFFFF) ∧
  g.regions.Pairwise (fun p q => ∀ a : Nat, ¬ ((p.1 ≤ a ∧ a < p.1 + p.2) ∧ (q.1 ≤ a ∧ a < q.1 + q.2)))

/-! ### Setting cycles -/

/-- The tag, address and value of a setting write. -/
def writeOf (c : Instr) : Option (Tag × Addr × Word) :=
  match c with
  | .settingWrite t a v => some (t, a, v)
  | .standbyPolicySetting t x v => some (t, settingAddr 4 0 x, v)
  | .capSetting .soft t x v => some (t, settingAddr 5 0 x, v)
  | .capSetting .hard t x v => some (t, settingAddr 5 1 x, v)
  | .poolCeilingSetting t x v => some (t, settingAddr 5 5 x, v)
  | .meterPreset t x v => some (t, settingAddr 5 6 x, v)
  | .start t x v => some (t, settingAddr 6 0 x, v)
  | .halt t x v => some (t, settingAddr 6 1 x, v)
  | .reconfigure t x v => some (t, settingAddr 6 2 x, v)
  | .forcePath t x v => some (t, settingAddr 6 3 x, v)
  | .failbackNow t x v => some (t, settingAddr 6 4 x, v)
  | .failbackMode t x v => some (t, settingAddr 6 5 x, v)
  | .radioRestart t x v => some (t, settingAddr 6 6 x, v)
  | .periodRestart t x v => some (t, settingAddr 6 7 x, v)
  | .clearAlerts t x v => some (t, settingAddr 6 8 x, v)
  | .clearFaults t x v => some (t, settingAddr 6 9 x, v)
  | .alertEnable t x v => some (t, settingAddr 6 10 x, v)
  | _ => none

/-- The tag and address of a setting read. -/
def readOf (c : Instr) : Option (Tag × Addr) :=
  match c with
  | .meterSnapshotRead t => some (t, settingAddr 9 0 0)
  | .summaryLatchRead t => some (t, settingAddr 9 1 0)
  | .uptimeLatchRead t => some (t, settingAddr 8 12 0)
  | .faultRecordLatchRead .first t => some (t, settingAddr 10 0 0)
  | .faultRecordLatchRead .last t => some (t, settingAddr 10 1 0)
  | .alertPendingRead t x => some (t, settingAddr 8 7 x)
  | .refusedSettingRead t a => some (t, a)
  | _ => none

/-- A group, item and index defined for a write (R173, R178 to R180). -/
abbrev definedWrite (g i x : Nat) : Prop :=
  (g = 0 ∧ i ≤ 2) ∨ (g = 1 ∧ i ≤ 12) ∨ (g = 2 ∧ i ≤ 6 ∧ x ≤ 7) ∨ g = 3 ∨ (g = 4 ∧ i ≤ 5) ∨
    (g = 5 ∧ (i ≤ 5 ∨ (i = 6 ∧ x ≤ 7))) ∨ (g = 6 ∧ i ≤ 10)

/-- A group, item and index defined for a read (R182 to R185). -/
abbrev definedRead (g i x : Nat) : Prop :=
  definedWrite g i x ∨
    (g = 8 ∧ (i ≤ 2 ∨ (i = 3 ∧ x ≤ 6) ∨ (i = 4 ∧ x ≤ 6) ∨ (i = 5 ∧ x ≤ 8) ∨ i = 6 ∨ i = 7 ∨ (i = 8 ∧ x ≤ 8) ∨
      i = 9 ∨ i = 10 ∨ i = 11 ∨ (i = 12 ∧ x ≤ 1) ∨ (i = 13 ∧ x ≤ 5))) ∨
    (g = 9 ∧ ((i = 0 ∧ x ≤ 7) ∨ (i = 1 ∧ x ≤ 1))) ∨
    (g = 10 ∧ ((i = 0 ∧ x ≤ 5) ∨ (i = 1 ∧ x ≤ 5) ∨ (i = 2 ∧ 1 ≤ x ∧ x ≤ 4)))

/-- Lowest value, highest value and default of a numbered setting (R178, R179); a POLICY item's index is its class. -/
def settingRange (g i x : Nat) : Nat × Nat × Nat :=
  match g with
  | 0 => [(0, 2, 1), (0, 1, 0), (0, 1, 0)].getD i (0, 65535, 0)
  | 1 =>
    [(0, 65535, 0), (0, 3, 1), (0, 65535, 0), (0, 3, 1), (0, 65535, 0), (0, 65535, 0), (0, 4, 2), (0, 65535, 0),
      (0, 4, 2), (0, 65535, 0), (0, 4, 2), (0, 65535, 0), (0, 4, 2)].getD i (0, 65535, 0)
  | 2 =>
    if i ≤ 3 then
      (0, 2, ([[0, 0, 0, 0], [0, 0, 0, 0], [0, 0, 0, 0], [0, 0, 0, 0], [0, 0, 1, 1], [0, 1, 1, 2], [1, 1, 1, 2],
        [1, 2, 2, 2]].getD x []).getD i 0)
    else if i = 6 then (0, 1, if x ≤ 3 then 0 else 1)
    else (0, 65535, 0)
  | 3 =>
    [(1, 255, 10), (0, 255, 10), (0, 255, 0), (0, 255, 50), (0, 255, 200), (0, 255, 30), (1, 255, 5), (1, 255, 10),
      (1, 255, 30), (1, 255, 3), (0, 255, 60), (1, 255, 10), (1, 255, 30), (0, 255, 20), (1, 255, 30),
      (1, 15, 4)].getD i (0, 65535, 0)
  | 4 => [(0, 1, 0), (1, 255, 90), (1, 255, 5), (0, 7, 3), (1, 255, 10), (0, 255, 100)].getD i (0, 65535, 0)
  | _ => [(0, 65535, 0), (0, 65535, 0), (0, 31, 5), (0, 65535, 1600), (1, 255, 10), (1, 65535, 16000)].getD i (0, 0, 0)

/-- Two setting addresses name one setting: the index counts for POLICY only (R173). -/
abbrev sameItem (a b : Addr) : Prop :=
  settingGroup a = settingGroup b ∧ settingItem a = settingItem b ∧
    (settingGroup a = 2 → settingIndex a = settingIndex b)

/-- What a taken read answers, by the tables of R182 to R185: a list stands for a table of fields or of codes, in the order
of its indices. -/
def State.reading (s : State) (g i x : Nat) : Nat :=
  let set := s.sdc.settings
  let geo := set.geometry
  let action (a : Action) : Nat := [Action.pass, .defer, .skip].idxOf a
  let path (p : Option Path) : Nat := [none, some .fibre, some .radio].idxOf p
  let flag (b : Bool) : Nat := if b then 1 else 0
  let health (r : PathRecord) : List Nat :=
    [[Health.off, .down, .trial, .up, .failed].idxOf r.health, r.grade,
      [DownCause.none, .stall, .silence, .light, .detach, .powerCycle, .terminalIndex].idxOf r.cause, r.trial, r.silence,
      r.downs, r.trials]
  let fault (r : Option FaultRec) : List Nat :=
    match r with
    | none => [0, 0, 0, 0xFFFF, 0, 0]
    | some f =>
      [[FaultClass.notice, .path, .transfer, .integrity].idxOf f.cls + 1,
        [FaultCause.lateWrite, .postOverrun, .reclaimOverrun, .releaseOverrun, .guardedWrite, .settingRefused,
          .strayCompletion, .invalidDescriptor, .deferralFull, .pathDown, .terminalIndex, .attachTimeout, .radioFailed,
          .flapLimit, .noPath, .farTimeout, .farTimeoutRepeated, .timeoutInSwitch].idxOf f.cause + 1,
        path f.path, f.slot.getD 0xFFFF, f.time.toNat, f.time.toNat / 65536]
  let states := [TxState.free, .posted, .placing, .placed, .fetched, .withdrawing, .deferred, .done, .skipped]
  let mib := (s.umt.tx.toNat + s.umt.rx.toNat) / 1048576
  match g with
  | 0 => [set.bus.length, set.bus.order, set.bus.polarity].getD i 0
  | 1 =>
    [geo.svcTx.base.value.toNat, geo.svcTx.size, geo.svcRx.base.value.toNat, geo.svcRx.size, geo.header.value.toNat,
      geo.tx.fibre.base.value.toNat, geo.tx.fibre.size, geo.rx.fibre.base.value.toNat, geo.rx.fibre.size,
      geo.tx.radio.base.value.toNat, geo.tx.radio.size, geo.rx.radio.base.value.toNat, geo.rx.radio.size].getD i 0
  | 2 =>
    let p := set.policy.getD x (defaultPolicy x)
    [action p.normal, action p.soft, action p.hard, action p.battery, p.fibreLabel.toNat, p.radioLabel.toNat,
      flag p.metered].getD i 0
  | 3 =>
    let t := set.timing
    [t.heartbeat, t.silence.fibre, t.silence.radio, t.confirm.fibre, t.confirm.radio, t.stall, t.trial1, t.trial2,
      t.trial3, t.radioTrial, t.deferralAge, t.voiceQuiet, t.emergencyQuiet, t.failbackWait, t.flapWindow,
      t.flapLimit].getD i 0
  | 4 =>
    let r := set.radio
    [[Standby.alwaysOn, .onDemand].idxOf r.standby, r.attach, r.powerOff, r.retry, r.keep, r.mainsConfirm].getD i 0
  | 5 =>
    let m := set.metering
    [m.softCap, m.hardCap, m.unit, m.amount, m.period, m.ceiling].getD i 0
  | 6 =>
    if i = 3 then path s.swc.force
    else if i = 5 then [FailbackMode.auto, .manual].idxOf s.swc.mode
    else if i = 10 then s.pcf.mask.toNat
    else 0
  | 8 =>
    ([[0x2214], [1], [[PartState.config, .starting, .active, .halted].idxOf s.pcf.part],
      [path s.swc.service, [SwitchState.steady, .waiting, .migrating].idxOf s.swc.state, path (s.swc.target.getD none),
        flag s.swc.voice.flag, flag s.swc.emergency.flag, s.swc.failovers, s.swc.failbacks],
      health (s.pathRec .fibre),
      health (s.pathRec .radio) ++
        [[PowerPhase.standby, .powered, .cycling, .failed].idxOf s.pmn.power.phase, s.pmn.power.retry],
      [[Regime.normal, .soft, .hard, .battery].idxOf s.umt.regime],
      [s.pcf.pending.toNat],
      (List.range 9).map (fun k => (s.tsm.entries.filter (fun e => decide (states.idxOf e.state = k))).length),
      [s.umt.pool], [s.ple.deferralQ.length], [s.pmn.flaps.length],
      [s.clock.uptime.toNat, s.sdc.uptimeHold.toNat / 65536],
      [[RefusalCause.none, .guard, .unknown, .busy, .state, .guarded, .geometry, .burst].idxOf s.sdc.refusal.cause,
        s.sdc.refusal.group.toNat, s.sdc.refusal.item.toNat, s.sdc.refusal.index.toNat,
        [Tag.supervisor, .user, .fibreTerm, .radioTerm].idxOf s.sdc.refusal.tag,
        [Dir.read, .write].idxOf s.sdc.refusal.dir]].getD i []).getD
      (if i ≤ 2 ∨ i = 6 ∨ i = 7 ∨ (9 ≤ i ∧ i ≤ 11) then 0 else x) 0
  | 9 =>
    if i = 0 then
      (if x = 0 then s.umt.tx.toNat
      else if x ≤ 3 then s.umt.holdTx.toNat / 65536 ^ x
      else s.umt.holdRx.toNat / 65536 ^ (x - 4))
    else if x = 0 then (if mib ≤ 0xFFFFFFFF then mib else 0xFFFFFFFF)
    else s.umt.latch.toNat / 65536
  | _ =>
    if i = 2 then [s.pcf.counts.notice, s.pcf.counts.path, s.pcf.counts.transfer, s.pcf.counts.integrity].getD (x - 1) 0
    else
      (fault (if i = 0 then (if x = 0 then s.pcf.first else s.sdc.firstHold)
        else if x = 0 then s.pcf.last else s.sdc.lastHold)).getD x 0

/-- What a taken read latches: the seen set and the holds of the latching reads, and nothing else (R143, R144, R183 to
R185). -/
def State.latched (s : State) (g i x : Nat) : State :=
  if g = 8 ∧ i = 7 then { s with sdc.seen := s.pcf.pending }
  else if g = 8 ∧ i = 12 ∧ x = 0 then { s with sdc.uptimeHold := s.clock.uptime }
  else if g = 9 ∧ i = 0 ∧ x = 0 then { s with umt.holdTx := s.umt.tx, umt.holdRx := s.umt.rx }
  else if g = 9 ∧ i = 1 ∧ x = 0 then { s with umt.latch := BitVec.ofNat 32 (s.reading 9 1 0) }
  else if g = 10 ∧ i = 0 ∧ x = 0 then { s with sdc.firstHold := s.pcf.first }
  else if g = 10 ∧ i = 1 ∧ x = 0 then { s with sdc.lastHold := s.pcf.last }
  else s

/-! ### Effects the claims name, written out -/

/-- The records, counts and alerts after a fault of a class is taken (R191, R194). -/
def State.faulted (s : State) (cls : FaultClass) (cause : FaultCause) (path : Option Path) (slot : Option Nat) : State :=
  let r : FaultRec := ⟨cls, cause, path, slot, s.clock.uptime⟩
  let up (n : Nat) : Nat := if n < 255 then n + 1 else 255
  let c := s.pcf.counts
  let bit : BitVec 7 := match cls with | .notice => 1 | .path => 2 | .transfer => 4 | .integrity => 8
  { s with
    pcf.first :=
      if s.pcf.first = none ∧ ¬ (cls = .integrity ∧ (s.pcf.part = .halted ∨ s.pcf.part = .config)) then some r
      else s.pcf.first
    pcf.last := some r
    pcf.counts :=
      match cls with
      | .notice => { c with notice := up c.notice }
      | .path => { c with path := up c.path }
      | .transfer => { c with transfer := up c.transfer }
      | .integrity => { c with integrity := up c.integrity }
    pcf.pending := s.pcf.pending ||| bit
    sdc.seen := s.sdc.seen &&& ~~~ bit }

/-- The effects of a refused setting cycle, the near cycle ended (R176); a write leaves the near data lines as they are (log
27). -/
def State.refusedWith (s : State) (cause : RefusalCause) (tag : Tag) (addr : Addr) (dir : Dir) : State :=
  { s.faulted .notice .settingRefused none none with
    nsi.near := none
    nsi.dataOut := if dir = .read then 0 else s.nsi.dataOut
    sdc.refusal := ⟨cause, addr.extractLsb' 20 4, addr.extractLsb' 16 4, addr.extractLsb' 8 8, tag, dir⟩ }

/-- The bit of an alert cause: pending, and no longer seen (R194). -/
def State.alerted (s : State) (bit : BitVec 7) : State :=
  { s with pcf.pending := s.pcf.pending ||| bit, sdc.seen := s.sdc.seen &&& ~~~ bit }

/-- A prompt of a re-examination, by the engine's condition (R64). -/
def State.prompted (s : State) : State :=
  if s.pcf.part = .active ∧ s.swc.service ≠ none ∧ s.ple.claim = .none then
    { s with
      ple.rexPending := s.ple.rexPending || s.ple.scan.isNone
      ple.rescan := s.ple.rescan || s.ple.scan.isSome }
  else s

/-- The regime of R149, from the mains and the byte total. -/
def State.regimeByTable (s : State) : Regime :=
  let total := s.umt.tx.toNat + s.umt.rx.toNat
  if s.umt.mains = .absent then .battery
  else if s.sdc.settings.metering.hardCap ≠ 0 ∧ s.sdc.settings.metering.hardCap * 16777216 ≤ total then .hard
  else if s.sdc.settings.metering.softCap ≠ 0 ∧ s.sdc.settings.metering.softCap * 16777216 ≤ total then .soft
  else .normal

/-- The regime computed: a change raises REGIME and prompts a re-examination (R149, R150). -/
def State.regimed (s : State) : State :=
  if s.regimeByTable = s.umt.regime then s
  else ({ s with umt.regime := s.regimeByTable }.alerted 0x20).prompted

/-- Entry i made SKIPPED with a status of the part's own, and its final write requested (R11, R36). -/
def State.skippedWith (s : State) (i : Nat) (status : Status) : State :=
  let e := s.entry i
  { s with
    tsm.entries := s.tsm.entries.set i
      { e with state := .skipped, path := none, pslot := none, final := some status, finalPending := some true }
    fsp.list := s.fsp.list ++
      [⟨.final, s.svcTxAddr i 0, [BitVec.ofNat 16 ((e.cls.getD 0).toNat * 2048 + status.toNat * 128)], some i, none, 0,
        false, false⟩] }

/-- The operation on the engine ended: a RE-DECISION's step with it (R131), a scan's RELEASE with the class it blocks
(R66), or with the scan when a claim waits (R67). -/
def State.opEnded (s : State) (o : Operation) (blocked : Option Cls) : State :=
  match o.kind with
  | .placement => { s with ple.op := none }
  | .reDecision => { s with ple.op := none, swc.step := none }
  | .release =>
    if s.ple.claim = .none then
      { s with
        ple.op := none
        ple.scan :=
          match blocked with
          | none => s.ple.scan
          | some c => s.ple.scan.map (fun k => ⟨if c ∈ k.blocked then k.blocked else c :: k.blocked, k.pos⟩) }
    else { s with ple.op := none, ple.scan := none, ple.rexPending := false, ple.rescan := false }

/-- An operation begun on entry i: PLACING, its eight words requested as a placement read (R29, R49). -/
def State.begunOn (s : State) (i : Nat) (kind : OpKind) (target : Path) : State :=
  { s with
    tsm.entries := s.tsm.entries.set i { s.entry i with state := .placing, path := some target, pslot := none }
    ple.op := some ⟨i, kind, .reading, target⟩
    fsp.copyReq := some ⟨.placementRead, s.svcTxAddr i 0, [], some i, none, 0, false, false⟩ }

/-- A queue with one more element at its place by a key: not behind an element above it, not before one at or below it. -/
def insertedAt {α : Type} (key : α → Nat) (a : α) (old new : List α) : Prop :=
  ∃ front back, old = front ++ back ∧ new = front ++ a :: back ∧ (∀ b ∈ front, key b ≤ key a) ∧
    ∀ b, back.head? = some b → key a < key b

/-- The short-write list with a header write requested (R164): joined at the tail, or, where two writes of the word wait,
its data word in the later of the two. -/
def headerRequested (a : Access) (old new : List Access) : Prop :=
  ((old.filter (isHeaderWrite a.hdr)).length < 2 → new = old ++ [a]) ∧
    (2 ≤ (old.filter (isHeaderWrite a.hdr)).length → ∃ front b back, old = front ++ b :: back ∧
      isHeaderWrite a.hdr b = true ∧ (∀ c ∈ back, isHeaderWrite a.hdr c = false) ∧
      new = front ++ { b with words := a.words } :: back)

/-- The far write that brings a header word of a path up to a record (R16). -/
def State.headerWrite (s : State) (w : Nat) (v : Word) (p : Option Path) : Access :=
  ⟨.header, BitVec.ofNat 24 (s.geo.header.value.toNat * 256 + w), [v], none, p, w, false, false⟩

/-- The timers' conditions, one for each expiry and tick, in the order the model takes them in one REFCLK cycle (log 4):
a running timer is at or past its setting, 1024 cycles to a millisecond (R196). -/
def State.expiries (s : State) : List (Bool × Instr) :=
  let t := s.sdc.settings.timing
  let r := s.sdc.settings.radio
  let reached (timer : Timer) (ms : Nat) : Bool := timer.any (fun n => decide (ms * 1024 ≤ n))
  let falling (p : Path) : Bool :=
    match (s.pathRec p).line with | .falling n => decide (t.confirm.get p * 1024 ≤ n) | _ => false
  let stalled (p : Path) : Bool := decide (t.stall ≠ 0) && reached (s.pathRec p).stall (t.stall * 100)
  [(s.settle.any (fun n => decide (205 ≤ n)), .settleEnd),
    (falling .fibre, .confirmTimerExpiry .fibre),
    (falling .radio, .confirmTimerExpiry .radio),
    ((match s.umt.mains with | .falling n => decide (r.mainsConfirm * 1024 ≤ n) | _ => false), .mainsConfirmExpiry),
    (decide (s.pmn.beatLen * 100 * 1024 ≤ s.pmn.beat), .heartbeatIntervalEnd),
    (stalled .fibre, .stallTimerExpiry .fibre),
    (stalled .radio, .stallTimerExpiry .radio),
    (reached s.pmn.power.attach (r.attach * 1000), .attachTimerExpiry),
    (reached s.pmn.power.off (r.powerOff * 1000), .powerOffTimerExpiry),
    (reached s.pmn.power.keep (r.keep * 60000), .keepTimerExpiry),
    (s.clock.minDue, .flapExpiry),
    (s.clock.secDue, .deferralExpiry),
    (reached s.swc.voice.timer (t.voiceQuiet * 1000), .quietTimerExpiry .voice),
    (reached s.swc.emergency.timer (t.emergencyQuiet * 1000), .quietTimerExpiry .emergency),
    (decide (t.failbackWait ≠ 0) && reached s.swc.wait (t.failbackWait * 60000), .failbackWaitExpiry),
    (decide (s.sdc.settings.metering.period * 10 * 1024 ≤ s.umt.refill), .creditRefill)]

/-- The effect of a command that answers a next state. -/
def State.ran (s : State) (c : Instr) : State :=
  match exec c s with
  | .next t => t
  | .fault _ => s
  | .refused _ => s

/-- An expiry come about at once where its timer is at or past its setting (R93, R116). -/
def State.expired (s : State) (c : Instr) : State := if (true, c) ∈ s.expiries then s.ran c else s

/-- A path's stall timer, brought in line with the four conditions under which it runs (R99). -/
def State.stallInLine (s : State) (p : Path) : Timer :=
  let r := s.pathRec p
  if s.pcf.part = .active ∧ (r.health = .trial ∨ r.health = .up) ∧ s.sdc.settings.timing.stall ≠ 0 ∧
      (s.ring p).producer ≠ (s.ring p).consumer
  then some (r.stall.getD 0)
  else none

/-- The stall timers in line, and the near streak 0 where no part work waits (R99, R165). -/
def State.timersInLine (s : State) : State :=
  { s with
    pmn.recs :=
      ⟨{ s.pathRec .fibre with stall := s.stallInLine .fibre }, { s.pathRec .radio with stall := s.stallInLine .radio }⟩
    fsp.streak :=
      if ((s.pcf.part = .starting ∨ s.pcf.part = .active) ∧ s.fsp.list ≠ []) ∨
          (s.pcf.part = .active ∧ s.fsp.copyReq ≠ none)
      then s.fsp.streak
      else 0 }

/-- A radio terminal's transmitted or received length added to a meter, which stops at 2^64 - 1 (R141, R142). -/
def metered (m : BitVec 64) (n : Nat) : BitVec 64 := BitVec.ofNat 64 (if m.toNat + n < 2 ^ 64 then m.toNat + n else 2 ^ 64 - 1)

/-- A cancelled withdrawal: its write off the short-write list wherever it stands, and the migration's step on it ended
(R40, R130). -/
def State.withdrawalCancelled (s : State) (i : Nat) : State :=
  { s with
    fsp.list := s.fsp.list.filter (fun a => decide (¬ (a.kind = .withdrawal ∧ a.slot = some i)))
    swc.step := if s.swc.step = some i then none else s.swc.step }

/-- One path slot passed by its terminal's consumer (R38): the slot record clear, an uncompleted mapped entry SKIPPED with
status 12, its withdrawal cancelled (R40), and a radio one metered by its cached length (R35). -/
def State.passed (s : State) (p : Path) (ps : Nat) : State :=
  let r := s.ring p
  let cleared : State := { s with ple.rings := s.ple.rings.set p { r with slots := r.slots.set ps ⟨false, none, false⟩ } }
  match (r.slotAt ps).mapped with
  | none => cleared
  | some i =>
    let e := s.entry i
    if e.state = .placed ∨ e.state = .fetched ∨ e.state = .withdrawing then
      let skipped := (if e.state = .withdrawing then cleared.withdrawalCancelled i else cleared).skippedWith i 12
      match p with
      | .fibre => skipped
      | .radio => ({ skipped with umt.tx := metered skipped.umt.tx (e.len.getD 0).toNat } : State).regimed
    else cleared

/-- The slots from the consumer record up to a written consumer value passed in ring order, and the record moved (R37). -/
def State.passedTo (s : State) (p : Path) (v : Word) : State :=
  let c := (s.ring p).consumer
  let n := 16 * 2 ^ (s.geo.tx.get p).size
  let t := (List.range (v - c).toNat).foldl (fun u k => u.passed p ((c + BitVec.ofNat 16 k).toNat % n)) s
  { t with ple.rings := t.ple.rings.set p { t.ring p with consumer := v } }

/-- The arrival list with a batch joined (R81): merged into the tail of its path, appended below 32 records, else merged
into its path's most recent record. -/
def joined (l : List Batch) (p : Path) (n : Nat) : List Batch :=
  let other (b : Batch) : Bool := decide (b.path ≠ p)
  let newer := (l.reverse.takeWhile other).reverse
  match l.reverse.dropWhile other with
  | b :: older =>
    if newer = [] ∨ 32 ≤ l.length then older.reverse ++ { b with count := b.count + n } :: newer else l ++ [⟨p, n⟩]
  | [] => if l.length < 32 then l ++ [⟨p, n⟩] else l

/-- The path slots that wait in an arrival list, by their paths, in the order they are assigned (R82). -/
def waitingSlots (l : List Batch) : List Path := l.flatMap (fun b => List.replicate b.count b.path)

/-- The far port granted to a far cycle of the part (R165); a read leaves FD as it is (log 26). -/
def State.grantedTo (s : State) (a : Access) : State :=
  { s with
    fsp.port := .part a
    fsp.streak := 0
    fsp.holdTimer := 0
    fsp.pins := ⟨a.addr, a.words.headD s.fsp.pins.fd, a.words.isEmpty, true⟩ }

/-- A near word has transferred: a read's data reaches the near side, the cycle goes on or ends with its last word, and the
run stands open while the next word follows it (R156, R159, R162); a write leaves the near data lines as they are (log 27). -/
def State.transferred (s : State) (c : NearCycle) (fa : Addr) (data : Word) : State :=
  let goneOn : State :=
    { s with
      nsi.near := if s.cycleLength c ≤ c.pos + 1 then none else s.nsi.near.map (fun n => { n with pos := c.pos + 1, data := none })
      nsi.dataOut := if c.dir = .read then data else s.nsi.dataOut }
  let follows := match goneOn.presented with | some next => decide (next.toNat = fa.toNat + 1) | none => false
  { goneOn with fsp.port := if follows then .nearRun fa else .free }

/-- A near word granted and taken by its owner in one event (R159), its far-side lines driven, FD by a write
only (log 26), and its far hold timer at 0. -/
def State.wordTaken (s : State) (c : NearCycle) (fa : Addr) (data : Word) : State :=
  takeWord
    { s with
      fsp.holdTimer := 0
      fsp.pins :=
        { fa := fa, fd := if c.dir = .write then data else s.fsp.pins.fd, frw := decide (c.dir = .read),
          fmsetn := c.msetn } }
    c (s.wordAddr c c.pos) data

/-- A near word waits on the hold line, a write with the data word it presents (R159, R160). -/
def State.offered (s : State) (data : Word) : State :=
  { s with nsi.near := s.nsi.near.map (fun n => { n with data := if n.dir = .write then some data else n.data }) }

/-- The kind of far cycle a completion command completes. -/
def completes (c : Instr) : Option AccessKind :=
  match c with
  | .placementReadComplete _ => some .placementRead
  | .publication => some .copy
  | .withdrawalWriteComplete => some .withdrawal
  | .mirrorWriteComplete => some .mirror
  | .finalWriteComplete => some .final
  | .headerWriteComplete => some .header
  | .startReadComplete _ => some .startRead
  | .startWriteComplete => some .startWrite
  | _ => none

/-- The words of a placement read in the copy buffer, class and length cached unless they already are (R8, R49). -/
def State.readInto (s : State) (i : Nat) (d : Descriptor) : State :=
  let e := s.entry i
  { s with
    tsm.entries := s.tsm.entries.set i
      { e with cls := some (e.cls.getD (d.w0.extractLsb' 11 3)), len := some (e.len.getD d.w1) }
    ple.copyBuf := d }

/-- The cost of placing an entry on a path (R53, R151). -/
def State.costOf (s : State) (target : Path) (i : Nat) : Nat :=
  match target with
  | .fibre => 0
  | .radio =>
    if (s.policyOf ((s.entry i).cls.getD 0)).metered = true then
      ((s.entry i).len.getD 0).toNat / 2 ^ (s.sdc.settings.metering.unit + 1)
    else 0

/-- The policy action of R52 for an entry on a path under the regime in force. -/
def State.actionOn (s : State) (target : Path) (cls : Cls) : Action :=
  if target = .fibre ∨ cls = 1 then .pass
  else
    match s.umt.regime with
    | .normal => (s.policyOf cls).normal
    | .soft => (s.policyOf cls).soft
    | .hard => (s.policyOf cls).hard
    | .battery => (s.policyOf cls).battery

/-- The copy begun (R54, R58): the path slot at the producer record, the cost taken from the pool, the composed copy
requested as one far write of eight words. -/
def State.copyBegun (s : State) (o : Operation) : State :=
  let e := s.entry o.slot
  let cls := e.cls.getD 0
  let ps := (s.ring o.target).producer.toNat % (16 * 2 ^ (s.geo.tx.get o.target).size)
  let d := s.ple.copyBuf
  let label := match o.target with | .fibre => (s.policyOf cls).fibreLabel | .radio => (s.policyOf cls).radioLabel
  { s with
    tsm.entries := s.tsm.entries.set o.slot { e with pslot := some ps }
    ple.op := some { o with phase := .copying }
    umt.pool := s.umt.pool - s.costOf o.target o.slot
    fsp.copyReq := some
      ⟨.copy, s.txAddr o.target ps 0,
        [1#1 ++ 0#1 ++ cls ++ 0#4 ++ d.w0.extractLsb' 0 7, d.w1, d.w2, d.w3, d.w4, label, d.w6, d.w7],
        some o.slot, some o.target, 0, false, false⟩ }

/-- An operation deferred, or dropped on a full queue (R55): the state before the operation ends, for some queue. -/
def State.deferredTo (s t : State) (i : Nat) : Prop :=
  (s.ple.deferralQ.length < 64 → ∃ q,
    insertedAt (fun r => s.orderOf r.seq)
      ⟨i, (s.entry i).cls.getD 0, (s.entry i).seq.getD 0, s.clock.uptime⟩ s.ple.deferralQ q ∧
    t = { s with
      tsm.entries := s.tsm.entries.set i { s.entry i with state := .deferred, path := none, pslot := none }
      ple.deferralQ := q }) ∧
  (64 ≤ s.ple.deferralQ.length → t = (s.skippedWith i 10).faulted .notice .deferralFull none (some i))

/-- An entry returned to POSTED at its post-order place in the placement queue (R41, R57). -/
def State.requeuedTo (s t : State) (i : Nat) : Prop :=
  ∃ q, insertedAt s.slotOrder i s.ple.placementQ q ∧
    t = { s with
      tsm.entries := s.tsm.entries.set i { s.entry i with state := .posted, path := none, pslot := none }
      ple.placementQ := q }

/-! ### Commands by what they may do -/

/-- The reset line's commands. -/
def movesReset (c : Instr) : Bool := decide (c = .resetAssert) || decide (c = .resetRelease)

/-- The commands that may lower a byte meter (R142). -/
def lowersMeters (c : Instr) : Bool :=
  match c with
  | .periodRestart _ _ _ => true
  | .meterPreset _ _ _ => true
  | c => movesReset c

/-- The command is a RECONFIGURE. -/
def isReconfigure (c : Instr) : Bool :=
  match c with
  | .reconfigure _ _ _ => true
  | _ => false

/-- The command is a CLEAR_FAULTS. -/
def isClearFaults (c : Instr) : Bool :=
  match c with
  | .clearFaults _ _ _ => true
  | _ => false

/-! ### Safe states -/

/-- The counts, lists, pool and timers named below are within the bounds the spec gives them. -/
structure State.Bounded (s : State) : Prop where
  migration : s.swc.list.length ≤ s.tsm.entries.length
  config : s.pcf.part = .config → s.swc.list = []
  pool : s.umt.pool ≤ s.sdc.settings.metering.ceiling
  deferral : s.ple.deferralQ.length ≤ 64
  arrivals : s.rmu.arrivals.length ≤ 32
  flaps : s.pmn.flaps.length ≤ 15
  retry : s.pmn.power.retry ≤ 8
  trial : ∀ p, (s.pathRec p).trial ≤ 255
  silence : ∀ p, (s.pathRec p).silence ≤ 255
  downs : ∀ p, (s.pathRec p).downs ≤ 65535
  trials : ∀ p, (s.pathRec p).trials ≤ 65535
  streak : s.fsp.streak ≤ 4
  hold : s.fsp.holdTimer ≤ 256
  failovers : s.swc.failovers ≤ 65535
  failbacks : s.swc.failbacks ≤ 65535
  notices : s.pcf.counts.notice ≤ 255
  paths : s.pcf.counts.path ≤ 255
  transfers : s.pcf.counts.transfer ≤ 255
  integrities : s.pcf.counts.integrity ≤ 255
  sub : s.clock.sub < 1024

/-- The service path is NONE or a path that is UP (R115), with what keeps it so: no service outside ACTIVE (R136, R137),
the wait only with the radio serving and the fibre UP (R122, R123), and the radio's health and timers as its phase has
them (R105, R108, R109). -/
structure State.ServiceSound (s : State) : Prop where
  up : ∀ p, s.swc.service = some p → (s.pathRec p).health = .up
  active : s.pcf.part ≠ .active → s.swc.service = none
  waiting : s.swc.state = .waiting → s.swc.service = some .radio ∧ (s.pathRec .fibre).health = .up
  powered : (s.pathRec .radio).health = .trial ∨ (s.pathRec .radio).health = .up → s.pmn.power.phase = .powered
  attaching : s.pmn.power.attach ≠ none →
    s.pmn.power.phase = .powered ∧ ((s.pathRec .radio).health = .down ∨ (s.pathRec .radio).health = .trial)
  cycling : s.pmn.power.off ≠ none → s.pmn.power.phase = .cycling ∧ (s.pathRec .radio).health = .down

/-- No EMERGENCY VOICE descriptor is in the deferral queue, and class 1 is not metered (R13, R52). -/
structure State.EmergencySound (s : State) : Prop where
  unmetered : (s.policyOf 1).metered = false
  absent : ∀ r ∈ s.ple.deferralQ, r.cls ≠ 1

/-- No zero-time work remains, and the migration list is no longer than the ring (R114, log 18). -/
structure State.Resting (s : State) : Prop where
  rest : s.atRest
  short : s.swc.list.length ≤ s.tsm.entries.length
  config : s.pcf.part = .config → s.swc.list = []

/-! ### What the zero-time work leaves alone -/

/-- What the zero-time work of the part owns, as an equation that keeps all the rest (R46 to R70, R106, R107, R114 to R138,
R165): the entries, the queues and the engine, the switch but for its mode, its force and the activity flags, the radio's
power, health and counts of the trial and the silence, the stall timers, the short-write list, the copy request, the near
streak, and the alerts. -/
structure State.WorkKeeps (s t : State) : Prop where
  frame : t = { s with
    tsm.entries := t.tsm.entries
    ple := { t.ple with copyBuf := s.ple.copyBuf, rings := s.ple.rings }
    pmn.recs :=
      ⟨{ s.pathRec .fibre with stall := (t.pathRec .fibre).stall },
        { s.pathRec .radio with
          health := (t.pathRec .radio).health
          trial := (t.pathRec .radio).trial
          silence := (t.pathRec .radio).silence
          stall := (t.pathRec .radio).stall }⟩
    pmn.power := t.pmn.power
    swc := { t.swc with mode := s.swc.mode, force := s.swc.force, voice := s.swc.voice, emergency := s.swc.emergency }
    fsp.list := t.fsp.list
    fsp.copyReq := t.fsp.copyReq
    fsp.streak := t.fsp.streak
    pcf.pending := t.pcf.pending
    sdc.seen := t.sdc.seen }
  size : t.tsm.entries.length = s.tsm.entries.length
  /-- Only SWITCHED and FAILBACK_HELD are raised, and a cause raised is no longer seen (R194). -/
  alerts : ∃ raised : BitVec 7, raised &&& 0x2F = 0 ∧ t.pcf.pending = s.pcf.pending ||| raised ∧
    t.sdc.seen = s.sdc.seen &&& ~~~ raised
  inLine : t = t.timersInLine
  stall : ∀ p, (t.pathRec p).stall = none ∨ (t.pathRec p).stall = some ((s.pathRec p).stall.getD 0)

end Sys2Proof.Machine
end

