-- ==== Sys2Proof/Certificates/Slice0/Obligations.lean ====
section
/-! DEFINITION. The statements for the provers. A rule R<n> is a rule of spec/; "log <n>" is a choice of the model's. -/

open Sys2Proof Sys2Proof.Machine

/-! ### The step and the reset line -/

/-- With a command at the front of the queue, a step is that command's effect on the state with the rest of the queue. -/
def Obligations.StepRunsFrontCommand : Prop :=
  ∀ (c : Instr) (rest : List Instr) (s : State), s.pending = c :: rest → step s = exec c { s with pending := rest }

/-- On an empty queue the part idles while RSTN is low; else the expiry that is due comes about, the first of the model's
order (log 4), and when none is due one REFCLK cycle passes: every running timer counts it, and uptime goes on by one
millisecond at each 1024 cycles (R196). An expiry is due when its timer is at or past its setting. -/
def Obligations.EmptyQueueRunsClock : Prop :=
  ∀ s : State, s.pending = [] →
    let on (timer : Timer) : Timer := timer.map (· + 1)
    let record (r : PathRecord) : PathRecord :=
      { r with stall := on r.stall, line := match r.line with | .falling n => .falling (n + 1) | l => l }
    s.due = (s.expiries.find? (·.1)).map (·.2) ∧
    (s.rstn = false → step s = .next s) ∧
    (s.rstn = true → ∀ c, s.due = some c → step s = exec c s) ∧
    (s.rstn = true → s.due = none → ∃ t, step s = .next t ∧
      t = { s with
        settle := on s.settle
        clock := t.clock
        pmn :=
          { s.pmn with
            recs := ⟨record (s.pathRec .fibre), record (s.pathRec .radio)⟩
            beat := s.pmn.beat + 1
            power :=
              { s.pmn.power with attach := on s.pmn.power.attach, off := on s.pmn.power.off, keep := on s.pmn.power.keep } }
        swc :=
          { s.swc with
            voice := ⟨s.swc.voice.flag, on s.swc.voice.timer⟩
            emergency := ⟨s.swc.emergency.flag, on s.swc.emergency.timer⟩
            wait := on s.swc.wait }
        umt :=
          { s.umt with
            mains := match s.umt.mains with | .falling n => .falling (n + 1) | m => m
            refill := s.umt.refill + 1 } } ∧
      (s.clock.sub + 1 < 1024 → t.clock = { s.clock with sub := s.clock.sub + 1 }) ∧
      (1024 ≤ s.clock.sub + 1 →
        t.clock.uptime = s.clock.uptime + 1 ∧ t.clock.sub = 0 ∧
        t.clock.secDue = (s.clock.secDue || decide ((s.clock.uptime + 1).toNat % 1000 = 0)) ∧
        t.clock.minDue = (s.clock.minDue || decide ((s.clock.uptime + 1).toNat % 60000 = 0))))

/-- The values the spec gives for power-on reset, in the state right after it, the defaults of the settings included. -/
def Obligations.PowerOnResetValues : Prop :=
  State.reset.pcf = ⟨.config, none, none, ⟨0, 0, 0, 0⟩, 0, 0x7F⟩ ∧
  State.reset.tsm = ⟨List.replicate 64 freeEntry, 0, 0, 0⟩ ∧
  State.reset.ple =
    ⟨[], [], ⟨0, 0, 0, 0, 0, 0, 0, 0⟩, none, false, false, none, .none,
      ⟨⟨List.replicate 64 clearSlot, 0, 0⟩, ⟨List.replicate 64 clearSlot, 0, 0⟩⟩⟩ ∧
  State.reset.rmu = ⟨List.replicate 64 .empty, 0, 0, ⟨⟨0, 0, 0⟩, ⟨0, 0, 0⟩⟩, []⟩ ∧
  State.reset.swc = ⟨none, .steady, none, none, [], none, none, .auto, ⟨false, none⟩, ⟨false, none⟩, none, false, 0, 0⟩ ∧
  (∀ p, (State.reset.pathRec p).grade = 3 ∧ (State.reset.pathRec p).cause = .none ∧
    (State.reset.pathRec p).trial = 0 ∧ (State.reset.pathRec p).silence = 0 ∧ (State.reset.pathRec p).stall = none ∧
    (State.reset.pathRec p).mark = false ∧ (State.reset.pathRec p).downs = 0 ∧ (State.reset.pathRec p).trials = 0) ∧
  (State.reset.pathRec .fibre).health = .down ∧ (State.reset.pathRec .radio).health = .down ∧
  State.reset.pmn.power = ⟨.powered, some 0, none, none, 0⟩ ∧ State.reset.pmn.flaps = [] ∧ State.reset.rpwr = true ∧
  State.reset.umt.tx = 0 ∧ State.reset.umt.rx = 0 ∧ State.reset.umt.holdTx = 0 ∧ State.reset.umt.holdRx = 0 ∧
  State.reset.umt.latch = 0 ∧ State.reset.umt.regime = .normal ∧ State.reset.umt.pool = 16000 ∧
  State.reset.umt.refill = 0 ∧
  State.reset.nsi.near = none ∧ State.reset.fsp.list = [] ∧ State.reset.fsp.copyReq = none ∧
  State.reset.fsp.reissue = none ∧ State.reset.fsp.streak = 0 ∧ State.reset.fsp.holdTimer = 0 ∧
  State.reset.fsp.pins.fmsetn = true ∧ State.reset.fsel = true ∧ State.reset.alrt = false ∧
  State.reset.sdc.settings =
    { bus := ⟨1, 0, 0⟩
      geometry :=
        ⟨⟨⟨0, false⟩, 1⟩, ⟨⟨0, false⟩, 1⟩, ⟨0, false⟩, ⟨⟨⟨0, false⟩, 2⟩, ⟨⟨0, false⟩, 2⟩⟩, ⟨⟨⟨0, false⟩, 2⟩, ⟨⟨0, false⟩, 2⟩⟩⟩
      policy :=
        [⟨.pass, .pass, .pass, .pass, 0, 1, false⟩, ⟨.pass, .pass, .pass, .pass, 0, 1, false⟩,
          ⟨.pass, .pass, .pass, .pass, 0, 1, false⟩, ⟨.pass, .pass, .pass, .pass, 0, 1, false⟩,
          ⟨.pass, .pass, .defer, .defer, 0, 2, true⟩, ⟨.pass, .defer, .defer, .skip, 0, 2, true⟩,
          ⟨.defer, .defer, .defer, .skip, 0, 2, true⟩, ⟨.defer, .skip, .skip, .skip, 0, 2, true⟩]
      timing := ⟨10, ⟨10, 0⟩, ⟨50, 200⟩, 30, 5, 10, 30, 3, 60, 10, 30, 20, 30, 4⟩
      radio := ⟨.alwaysOn, 90, 5, 3, 10, 100⟩
      metering := ⟨0, 0, 5, 1600, 10, 16000⟩ } ∧
  State.reset.sdc.seen = 0 ∧ State.reset.sdc.refusal.cause = .none ∧
  State.reset.sdc.firstHold = none ∧ State.reset.sdc.lastHold = none ∧ State.reset.sdc.uptimeHold = 0 ∧
  State.reset.clock.uptime = 0 ∧ State.reset.settle = some 0

/-- The reset line. RSTN going low sets every register to its power-on value whatever the part was doing (log 14): no far
cycle, HOLD low, RPWR low, ALRT low, no near cycle. RSTN rising gives CONFIG with the settle started, each line sampled, the
fibre DOWN, the sequencer POWERED with the radio DOWN and its attach timer started, and the near cycle begun meanwhile
decoded; SETTLE_END ends the settle. A line level that is the present one is no event (log 3). -/
def Obligations.ResetLineRestartsPart : Prop :=
  (∀ s : State, s.rstn = true → ∃ t, exec .resetAssert s = .next t ∧ t = State.lowReset s.lines s.pending ∧
    t.fsel = true ∧ t.fsp.pins.fmsetn = true ∧ t.holdLevel = false ∧ t.rpwr = false ∧ t.alrt = false ∧
    t.nsi.near = none) ∧
  (∀ s : State, s.rstn = false → exec .resetAssert s = .next s) ∧
  (∀ s : State, s.rstn = false → ∃ t, exec .resetRelease s = .next t ∧
    t = { State.released s.lines s.pending with nsi.near := s.nsi.bus } ∧
    t.rstn = true ∧ t.pcf.part = .config ∧ t.settle = some 0 ∧ t.clock.uptime = 0 ∧
    (t.pathRec .fibre).line = (if s.lines.losn then .good else .falling 0) ∧
    (t.pathRec .radio).line = (if s.lines.ratt then .good else .falling 0) ∧
    t.umt.mains = (if s.lines.mains then .present else .falling 0) ∧
    (t.pathRec .fibre).health = .down ∧ (t.pathRec .radio).health = .down ∧ t.rpwr = true ∧
    t.pmn.power.attach = some 0 ∧ t.pmn.beat = 0 ∧ t.umt.refill = 0) ∧
  (∀ s : State, s.rstn = true → exec .resetRelease s = .next s) ∧
  (∀ s : State, exec .settleEnd s = .next { s with settle := none })

/-! ### The near bus -/

/-- An address valid begins a cycle with its latched fields when the interface is IDLE, is ignored while a cycle is present,
and is kept for the rise of RSTN while RSTN is low. SEL rising ends the cycle at once: its run gives up the far port, a word
memory holds goes on alone, a far cycle of the part is not touched, and nothing else changes: a latched CFGN-low burst that
SETTING_BURST has not judged goes with no refusal and no notice (log 21). -/
def Obligations.NearCycleBeginsAndEnds : Prop :=
  (∀ (s : State) (addr : Addr) (dir : Dir) (burst : Bool) (tag : Tag) (cfgn msetn : Bool),
    let latched : NearCycle := ⟨addr, dir, burst, tag, cfgn, msetn, 0, false, [], none⟩
    (s.rstn = true → s.nsi.near = none →
      exec (.nearCycleBegin addr dir burst tag cfgn msetn) s = .next { s with nsi.near := some latched }) ∧
    (s.rstn = true → s.nsi.near ≠ none → exec (.nearCycleBegin addr dir burst tag cfgn msetn) s = .next s) ∧
    (s.rstn = false → s.nsi.bus = none →
      exec (.nearCycleBegin addr dir burst tag cfgn msetn) s = .next { s with nsi.bus := some latched }) ∧
    (s.rstn = false → s.nsi.bus ≠ none → exec (.nearCycleBegin addr dir burst tag cfgn msetn) s = .next s)) ∧
  (∀ s : State,
    (s.rstn = true → (s.fsp.port = .free ∨ ∃ l, s.fsp.port = .nearRun l) →
      exec .selRise s = .next { s with nsi.near := none, fsp.port := .free }) ∧
    (s.rstn = true → ∀ w, s.fsp.port = .nearHeld w →
      exec .selRise s = .next { s with nsi.near := none, fsp.port := .nearOrphan w }) ∧
    (s.rstn = true → ((∃ w, s.fsp.port = .nearOrphan w) ∨ ∃ a, s.fsp.port = .part a) →
      exec .selRise s = .next { s with nsi.near := none }) ∧
    (s.rstn = false → exec .selRise s = .next { s with nsi.bus := none }))

/-- A word that is passed or redirected goes on with the near run that holds the port, or is arbitrated at a port that opens
and is granted unless part work goes first: its far transfer is at the far address, the near streak counts a grant, its owner
takes it once, and it transfers (FHOLD low; the run stands open while the next word follows it) or waits in transfer (FHOLD
high, log 7), until FHOLD low ends that transfer. A word that is not granted, or held, waits, a write with its data word (log
8), and a run that has ended gives up the port; with no memory word to carry the command is no event (log 3). In ACTIVE, and
never in a memory setting cycle, the owner of a word is found by its region, direction and tag; LATE_WRITE is raised once for
a cycle and slot. A read's far cycle leaves FD, and a write leaves the near data lines, as they are (logs 26 and 27). -/
def Obligations.NearWordGrantTakesAndTransfers : Prop :=
  (∀ (s : State) (c : NearCycle) (fa : Addr) (data : Word), s.rstn = true → s.presents c fa →
    let short := (s.pcf.part = .starting ∨ s.pcf.part = .active) ∧ s.fsp.list ≠ []
    let copy := s.pcf.part = .active ∧ s.fsp.copyReq ≠ none
    let reissue := (s.pcf.part = .starting ∨ s.pcf.part = .active) ∧ s.fsp.reissue ≠ none
    let wins := ¬ reissue ∧ ((¬ short ∧ ¬ copy) ∨ s.fsp.streak < 4)
    let opened : State := { s with fsp.port := .free }
    let charged : State :=
      { opened with fsp.streak := if short ∨ copy then (if s.fsp.streak < 4 then s.fsp.streak + 1 else 4) else 0 }
    let granted (u : State) : Prop :=
      exec (.nearWordGrant data false) s = .next (settleWork ((u.wordTaken c fa data).transferred c fa data)) ∧
      exec (.nearWordGrant data true) s =
        .next (settleWork { u.wordTaken c fa data with fsp.port := .nearHeld ⟨fa, c.dir, c.tag⟩ })
    (s.runContinues fa → granted s) ∧
    (s.portOpens fa → wins → granted charged) ∧
    (s.portOpens fa → ¬ wins → ∀ fhold, exec (.nearWordGrant data fhold) s = .next (settleWork (opened.offered data))) ∧
    (∀ b, s.fsp.port = .part b → ∀ fhold, exec (.nearWordGrant data fhold) s = .next (settleWork (s.offered data)))) ∧
  (∀ (s : State) (c : NearCycle) (data : Word),
    s.rstn = true → s.nsi.near = some c → c.cfgn = true → c.dead = false →
    (∀ w, s.fsp.port = .nearHeld w →
      exec (.nearWordGrant data false) s = .next (settleWork (s.transferred c w.addr data)) ∧
      exec (.nearWordGrant data true) s = .next (settleWork s)) ∧
    ((∀ w, s.fsp.port ≠ .nearHeld w) → s.treatment c (s.wordAddr c c.pos) = .hold →
      let closed : State := { s with fsp.port := match s.fsp.port with | .nearRun _ => .free | q => q }
      ∀ fhold, exec (.nearWordGrant data fhold) s = .next (settleWork (closed.offered data)))) ∧
  (∀ (s : State) (data : Word) (fhold : Bool),
    (s.rstn = false → exec (.nearWordGrant data fhold) s = .next s) ∧
    (s.rstn = true → (s.nsi.near = none ∨ ∃ c, s.nsi.near = some c ∧ c.cfgn = false) →
      exec (.nearWordGrant data fhold) s = .next (settleWork s))) ∧
  ∀ (c : NearCycle) (a : Addr) (data : Word),
    (∀ u : State,
      let controller : Prop := c.tag = .supervisor ∨ c.tag = .user
      let terminal (p : Path) : Prop := c.tag = match p with | .fibre => .fibreTerm | .radio => .radioTerm
      let late (i : Nat) : Bool := match (u.entry i).state with
        | .deferred | .placed | .fetched | .done | .skipped => true
        | .placing => u.ple.op.any (fun o => decide (o.slot = i ∧ o.phase = .waiting))
        | .free | .posted | .withdrawing => false
      (u.pcf.part ≠ .active ∨ c.msetn = false → takeWord u c a data = u) ∧
      (u.pcf.part = .active → c.msetn = true →
        (∀ w, u.regionOf a = .header w → takeWord u c a data =
          if c.dir = .read then u
          else if w = 0 ∧ controller then takePost u data
          else if w = 1 ∧ controller then takeReclaim u data
          else if w = 3 ∧ controller then takeRelease u data
          else if w = 5 ∧ terminal .fibre then takeTxConsumer u .fibre data
          else if w = 6 ∧ terminal .fibre then takeRxProducer u .fibre data
          else if w = 9 ∧ terminal .radio then takeTxConsumer u .radio data
          else if w = 10 ∧ terminal .radio then takeRxProducer u .radio data
          else u) ∧
        (∀ p i k, u.regionOf a = .tx p i k → takeWord u c a data =
          if k ≠ 0 ∨ ¬ terminal p then u
          else if c.dir = .read then takeFetch u p i
          else if data.getLsbD 15 = false ∧ data.extractLsb' 7 4 ≠ (0 : Status) then takeCompletion u p i data
          else u) ∧
        (∀ p i k, u.regionOf a = .rx p i k → takeWord u c a data =
          if c.dir = .write ∧ p = .radio ∧ k = 1 ∧ terminal .radio then
            ({ u with umt.rx := metered u.umt.rx data.toNat } : State).regimed
          else u) ∧
        (∀ i k : Nat, u.regionOf a = .svcTx i k → takeWord u c a data =
          if c.dir = .write ∧ controller ∧ late i = true ∧ i ∉ c.late then
            { u.faulted .notice .lateWrite none (some i) with
              nsi.near := u.nsi.near.map (fun n => { n with late := i :: n.late }) }
          else u) ∧
        (∀ i k, u.regionOf a = .svcRx i k → takeWord u c a data = u) ∧
        (u.regionOf a = .ordinary → takeWord u c a data = u)))

/-- In CONFIG a word of a near memory cycle that meets the idle far port passes at its own address, nothing is guarded or
tracked, a read's data reaches the near side, a write leaves the near data lines as they are (log 27), and the cycle goes on or
ends with its last word. -/
def Obligations.ConfigPassesNearWords : Prop :=
  ∀ (s : State) (c : NearCycle) (data : Word), s.rstn = true → s.pcf.part = .config → s.nsi.near = some c →
    c.cfgn = true → c.dead = false → s.fsp.port = .free →
    ∃ t, exec (.nearWordGrant data false) s = .next t ∧
      t.fsp.pins.fa = s.wordAddr c c.pos ∧ t.fsp.pins.frw = decide (c.dir = .read) ∧ t.fsp.pins.fmsetn = c.msetn ∧
      (c.dir = .write → t.fsp.pins.fd = data ∧ t.nsi.dataOut = s.nsi.dataOut) ∧ (c.dir = .read → t.nsi.dataOut = data) ∧
      t.nsi.near = (if s.cycleLength c ≤ c.pos + 1 then none else some { c with pos := c.pos + 1, data := none }) ∧
      t.fsp.port =
        (if c.pos + 1 < s.cycleLength c ∧ (s.wordAddr c (c.pos + 1)).toNat = (s.wordAddr c c.pos).toNat + 1 then
          .nearRun (s.wordAddr c c.pos)
        else .free) ∧
      (t.fsel = true ↔ t.fsp.port = .free) ∧
      t.tsm = s.tsm ∧ t.ple = s.ple ∧ t.rmu = s.rmu ∧ t.umt = s.umt ∧ t.swc = s.swc ∧ t.pcf = s.pcf ∧ t.sdc = s.sdc ∧
      t.clock = s.clock ∧ t.lines = s.lines ∧ t.pmn.power = s.pmn.power ∧ t.pmn.flaps = s.pmn.flaps

/-- Outside CONFIG a guarded write is dropped: no far transfer begins, a near run ends, the word completes on the near side,
and notice GUARDED_WRITE is raised with the word's path and no slot; a part at rest keeps every table. That the far-side lines
keep their levels also where FSEL is high, and that the near data lines keep theirs, is the model's choice (logs 26 and 27). -/
def Obligations.GuardedWriteIsDropped : Prop :=
  ∀ (s : State) (c : NearCycle) (path : Option Path) (data : Word) (fhold : Bool), s.rstn = true → s.atRest →
    s.nsi.near = some c → c.cfgn = true → c.dead = false → (∀ w, s.fsp.port ≠ .nearHeld w) →
    s.treatment c (s.wordAddr c c.pos) = .guarded path →
    ∃ t, exec (.nearWordGrant data fhold) s = .next t ∧
      t.fsp.pins = s.fsp.pins ∧ t.fsp.port = (match s.fsp.port with | .nearRun _ => .free | q => q) ∧
      t.nsi.near = (if s.cycleLength c ≤ c.pos + 1 then none else some { c with pos := c.pos + 1, data := none }) ∧
      t.nsi.dataOut = s.nsi.dataOut ∧
      t.pcf.last = some ⟨.notice, .guardedWrite, path, none, s.clock.uptime⟩ ∧
      t.pcf.counts = { s.pcf.counts with notice := if s.pcf.counts.notice < 255 then s.pcf.counts.notice + 1 else 255 } ∧
      t.pcf.pending = s.pcf.pending ||| 1 ∧ t.tsm = s.tsm ∧ t.ple = s.ple ∧ t.rmu = s.rmu ∧ t.umt = s.umt ∧
      t.swc = s.swc ∧ t.sdc.settings = s.sdc.settings

/-- Which words are guarded (R15, R18), which pass unclassified (R6, R161), and how a controller word to a service transmit
slot, or receive slot, is treated by the part state and the state of its entry (R26 to R28, R44, R84, R89). HOLD is asserted,
at the level its setting gives, exactly while the word presented cannot complete: a held word, or one the far port cannot be
granted to (R160). The regions lie where the bases and sizes put them, at 256 words a base step and 8 words a slot, the
header block with its 12 words, all else ordinary; under a geometry that START accepts every word of a region is that
region's, and the part's addresses of slot words are base + 8 * slot + word (R2, R4 to R6). -/
def Obligations.WordTreatments : Prop :=
  (∀ s : State,
    let asserted := s.holdLevel = decide (s.sdc.settings.bus.polarity = 1)
    let reissue := (s.pcf.part = .starting ∨ s.pcf.part = .active) ∧ s.fsp.reissue ≠ none
    let short := (s.pcf.part = .starting ∨ s.pcf.part = .active) ∧ s.fsp.list ≠ []
    let copy := s.pcf.part = .active ∧ s.fsp.copyReq ≠ none
    let wins := ¬ reissue ∧ ((¬ short ∧ ¬ copy) ∨ s.fsp.streak < 4)
    (s.rstn = false → s.holdLevel = false) ∧
    (s.rstn = true →
      (s.nsi.near = none → ¬ asserted) ∧
      (∀ c, s.nsi.near = some c →
        (c.cfgn = false ∨ c.dead = true → ¬ asserted) ∧
        (c.cfgn = true → c.dead = false →
          let t := s.treatment c (s.wordAddr c c.pos)
          ((∃ p, t = .guarded p) → ¬ asserted) ∧
          (t = .hold → asserted) ∧
          (∀ fa, t.farAddr (s.wordAddr c c.pos) = some fa →
            ((∃ b, s.fsp.port = .part b) ∨ (∃ w, s.fsp.port = .nearHeld w) ∨ (∃ w, s.fsp.port = .nearOrphan w) →
              asserted) ∧
            (s.fsp.port = .free → (asserted ↔ ¬ wins)) ∧
            (∀ l, s.fsp.port = .nearRun l → (asserted ↔ fa.toNat ≠ l.toNat + 1 ∧ ¬ wins))))))) ∧
  (∀ s : State,
    let at256 (b : BaseSetting) : Nat := 256 * b.value.toNat
    let serviceWords (r : RingSetting) : Nat := 8 * (32 * 2 ^ r.size)
    let pathWords (r : RingSetting) : Nat := 8 * (16 * 2 ^ r.size)
    let within (b : BaseSetting) (n : Nat) (a : Addr) : Prop := at256 b ≤ a.toNat ∧ a.toNat < at256 b + n
    let slotIs (b : BaseSetting) (n : Nat) (a : Addr) (i k : Nat) : Prop :=
      within b n a ∧ i = (a.toNat - at256 b) / 8 ∧ k = (a.toNat - at256 b) % 8
    (∀ a i k, s.regionOf a = .svcTx i k → slotIs s.geo.svcTx.base (serviceWords s.geo.svcTx) a i k) ∧
    (∀ a i k, s.regionOf a = .svcRx i k → slotIs s.geo.svcRx.base (serviceWords s.geo.svcRx) a i k) ∧
    (∀ a w, s.regionOf a = .header w → within s.geo.header 12 a ∧ w = a.toNat - at256 s.geo.header) ∧
    (∀ a p i k, s.regionOf a = .tx p i k → slotIs (s.geo.tx.get p).base (pathWords (s.geo.tx.get p)) a i k) ∧
    (∀ a p i k, s.regionOf a = .rx p i k → slotIs (s.geo.rx.get p).base (pathWords (s.geo.rx.get p)) a i k) ∧
    (∀ a, s.regionOf a = .ordinary ↔
      ¬ within s.geo.svcTx.base (serviceWords s.geo.svcTx) a ∧ ¬ within s.geo.svcRx.base (serviceWords s.geo.svcRx) a ∧
      ¬ within s.geo.header 12 a ∧ ∀ p, ¬ within (s.geo.tx.get p).base (pathWords (s.geo.tx.get p)) a ∧
        ¬ within (s.geo.rx.get p).base (pathWords (s.geo.rx.get p)) a) ∧
    (s.geo.fits →
      (∀ a i k, slotIs s.geo.svcTx.base (serviceWords s.geo.svcTx) a i k → s.regionOf a = .svcTx i k) ∧
      (∀ a i k, slotIs s.geo.svcRx.base (serviceWords s.geo.svcRx) a i k → s.regionOf a = .svcRx i k) ∧
      (∀ a, within s.geo.header 12 a → s.regionOf a = .header (a.toNat - at256 s.geo.header)) ∧
      (∀ a p i k, slotIs (s.geo.tx.get p).base (pathWords (s.geo.tx.get p)) a i k → s.regionOf a = .tx p i k) ∧
      (∀ a p i k, slotIs (s.geo.rx.get p).base (pathWords (s.geo.rx.get p)) a i k → s.regionOf a = .rx p i k)) ∧
    (∀ i k, s.svcTxAddr i k = BitVec.ofNat 24 (at256 s.geo.svcTx.base + 8 * i + k) ∧
      ∀ p, s.txAddr p i k = BitVec.ofNat 24 (at256 (s.geo.tx.get p).base + 8 * i + k) ∧
        s.rxAddr p i k = BitVec.ofNat 24 (at256 (s.geo.rx.get p).base + 8 * i + k))) ∧
  ∀ (s : State) (c : NearCycle) (a : Addr),
    ((s.pcf.part = .config ∨ c.msetn = false) → s.treatment c a = .pass) ∧
    (s.pcf.part ≠ .config → c.msetn = true →
      (∀ w, s.regionOf a = .header w →
        s.treatment c a =
          if c.dir = .write ∧
            ¬ (((w = 0 ∨ w = 1 ∨ w = 3) ∧ (c.tag = .supervisor ∨ c.tag = .user)) ∨
              ((w = 5 ∨ w = 6) ∧ c.tag = .fibreTerm) ∨ ((w = 9 ∨ w = 10) ∧ c.tag = .radioTerm))
          then .guarded (if 4 ≤ w ∧ w ≤ 7 then some .fibre else if 8 ≤ w ∧ w ≤ 11 then some .radio else none)
          else .pass) ∧
      (∀ i k, s.regionOf a = .tx .fibre i k →
        s.treatment c a = if c.dir = .write ∧ c.tag ≠ .fibreTerm then .guarded (some .fibre) else .pass) ∧
      (∀ i k, s.regionOf a = .tx .radio i k →
        s.treatment c a = if c.dir = .write ∧ c.tag ≠ .radioTerm then .guarded (some .radio) else .pass) ∧
      (∀ p i k, s.regionOf a = .rx p i k → s.treatment c a = .pass) ∧
      (s.regionOf a = .ordinary → s.treatment c a = .pass) ∧
      (∀ i k, s.regionOf a = .svcTx i k → (c.tag = .fibreTerm ∨ c.tag = .radioTerm) → s.treatment c a = .pass) ∧
      (∀ i k, s.regionOf a = .svcTx i k → (c.tag = .supervisor ∨ c.tag = .user) →
        (s.pcf.part = .starting → s.treatment c a = .hold) ∧
        (s.pcf.part = .active →
          ((s.entry i).state = .withdrawing → s.treatment c a = .hold) ∧
          ((s.entry i).state = .placing → s.treatment c a = if s.opWaits i then .pass else .hold) ∧
          ((s.entry i).state = .free ∨ (s.entry i).state = .posted ∨ (s.entry i).state = .deferred ∨
            (s.entry i).state = .done ∨ (s.entry i).state = .skipped → s.treatment c a = .pass)) ∧
        (s.pcf.part = .active ∨ s.pcf.part = .halted →
          (s.entry i).state = .placed ∨ (s.entry i).state = .fetched →
          (c.dir = .write → s.treatment c a = .pass) ∧
          (c.dir = .read → ∀ p ps, (s.entry i).path = some p → (s.entry i).pslot = some ps →
            s.treatment c a = .redirect (s.txAddr p ps k))) ∧
        (s.pcf.part = .halted → (s.entry i).state ≠ .placed → (s.entry i).state ≠ .fetched →
          s.treatment c a = .pass)) ∧
      (∀ i k, s.regionOf a = .svcRx i k → (c.tag = .fibreTerm ∨ c.tag = .radioTerm) → s.treatment c a = .pass) ∧
      (∀ i k, s.regionOf a = .svcRx i k → (c.tag = .supervisor ∨ c.tag = .user) →
        (s.pcf.part = .starting → s.treatment c a = .hold) ∧
        (s.pcf.part = .active ∨ s.pcf.part = .halted →
          (s.rxEntry i = .empty → s.treatment c a = .pass) ∧
          (∀ p ps, s.rxEntry i = .filled p ps → s.treatment c a = .redirect (s.rxAddr p ps k)))))

/-- A single has one word, at its latched address. The k-th word of a burst lies in the block of its latched address, at the
offset its burst order gives, and a burst visits every word of its block once. -/
def Obligations.BurstWordsCoverBlock : Prop :=
  (∀ (s : State) (c : NearCycle), c.burst = false → s.cycleLength c = 1 ∧ s.wordAddr c 0 = c.addr) ∧
  ∀ (s : State) (c : NearCycle), c.burst = true → s.sdc.settings.bus.length ≤ 2 →
    let n := if s.sdc.settings.bus.length = 0 then 4 else if s.sdc.settings.bus.length = 1 then 8 else 16
    let base := c.addr.toNat / n * n
    let start := c.addr.toNat % n
    s.cycleLength c = n ∧
    (∀ k, k < n → s.sdc.settings.bus.order = 0 → (s.wordAddr c k).toNat = base + (start + k) % n) ∧
    (∀ k, k < n → s.sdc.settings.bus.order ≠ 0 → (s.wordAddr c k).toNat = base + Nat.xor start k) ∧
    (∀ j, j < n → ∃ k, k < n ∧ (s.wordAddr c k).toNat = base + j) ∧
    (∀ j k, j < n → k < n → s.wordAddr c j = s.wordAddr c k → j = k)

/-! ### What the owners take -/

/-- A post takes the FREE entries from the post record on, at most its advance: each becomes POSTED with the next sequence
and joins the tail of the placement queue; one that takes fewer than its advance raises POST_OVERRUN with the slot of the
new post record and no path. -/
def Obligations.PostTakesFreeEntries : Prop :=
  ∀ (s : State) (v : Word), s.tsm.entries.length = s.svcTxSize → s.sdc.settings.geometry.svcTx.size ≤ 3 →
    let n := (v - s.tsm.post).toNat
    let k := s.freeRun (min n s.svcTxSize)
    let t := takePost s v
    t.tsm.post = s.tsm.post + BitVec.ofNat 16 k ∧ t.tsm.seqCtr = s.tsm.seqCtr + BitVec.ofNat 16 k ∧
    t.tsm.reclaim = s.tsm.reclaim ∧
    t.ple.placementQ = s.ple.placementQ ++
      (List.range k).map (fun j => slotOf (s.tsm.post + BitVec.ofNat 16 j) s.svcTxSize) ∧
    (∀ j, j < k → t.entry (slotOf (s.tsm.post + BitVec.ofNat 16 j) s.svcTxSize) =
      { freeEntry with state := .posted, seq := some (s.tsm.seqCtr + BitVec.ofNat 16 j) }) ∧
    (∀ i, (∀ j, j < k → i ≠ slotOf (s.tsm.post + BitVec.ofNat 16 j) s.svcTxSize) → t.entry i = s.entry i) ∧
    (k = n → t.pcf = s.pcf) ∧
    (k < n → t.pcf.last = some ⟨.notice, .postOverrun, none, some (slotOf t.tsm.post s.svcTxSize), s.clock.uptime⟩) ∧
    t.rmu = s.rmu ∧ t.umt = s.umt ∧ t.swc = s.swc ∧ t.pmn = s.pmn ∧ t.fsp = s.fsp ∧ t.ple.deferralQ = s.ple.deferralQ

/-- A reclaim frees the DONE or SKIPPED entries with no final write pending from the reclaim record on, at most its advance;
one that frees fewer raises RECLAIM_OVERRUN with the slot of the first entry not freed and no path. -/
def Obligations.ReclaimFreesCompletedEntries : Prop :=
  ∀ (s : State) (v : Word), s.tsm.entries.length = s.svcTxSize → s.sdc.settings.geometry.svcTx.size ≤ 3 →
    let n := (v - s.tsm.reclaim).toNat
    let k := s.doneRun (min n s.svcTxSize)
    let t := takeReclaim s v
    t.tsm.reclaim = s.tsm.reclaim + BitVec.ofNat 16 k ∧ t.tsm.post = s.tsm.post ∧ t.tsm.seqCtr = s.tsm.seqCtr ∧
    (∀ j, j < k → t.entry (slotOf (s.tsm.reclaim + BitVec.ofNat 16 j) s.svcTxSize) = freeEntry) ∧
    (∀ i, (∀ j, j < k → i ≠ slotOf (s.tsm.reclaim + BitVec.ofNat 16 j) s.svcTxSize) → t.entry i = s.entry i) ∧
    (k = n → t.pcf = s.pcf) ∧
    (k < n →
      t.pcf.last = some ⟨.notice, .reclaimOverrun, none, some (slotOf t.tsm.reclaim s.svcTxSize), s.clock.uptime⟩) ∧
    t.ple = s.ple ∧ t.rmu = s.rmu ∧ t.umt = s.umt ∧ t.swc = s.swc ∧ t.pmn = s.pmn ∧ t.fsp = s.fsp

/-- The race of a withdrawal and the terminal. A fetch, a completion or a consumer pass taken before the withdrawal write is
granted makes the entry FETCHED, DONE or SKIPPED, removes the write from the short-write list and ends the migration's step on
it; a slot that is withdrawn answers neither a fetch nor a completion, and raises nothing. A completion on a slot neither mapped
nor withdrawn, published before or never, raises STRAY_COMPLETION with the path and changes nothing else. A fetch of a PLACED
entry makes it FETCHED and changes nothing else; a fetch of any other slot changes nothing. -/
def Obligations.WithdrawalRaceHasOneWinner : Prop :=
  (∀ (s : State) (p : Path) (ps i : Nat), (s.ring p).slotAt ps = ⟨true, some i, false⟩ → i < s.tsm.entries.length →
    (s.entry i).state = .withdrawing →
    let t := takeFetch s p ps
    t.entry i = { s.entry i with state := .fetched } ∧ (∀ j, j ≠ i → t.entry j = s.entry j) ∧
    (∀ a ∈ t.fsp.list, ¬ (a.kind = .withdrawal ∧ a.slot = some i)) ∧
    (∀ a ∈ s.fsp.list, ¬ (a.kind = .withdrawal ∧ a.slot = some i) → a ∈ t.fsp.list) ∧
    t.swc.step ≠ some i ∧ t.ple.rings = s.ple.rings ∧ t.pcf = s.pcf) ∧
  (∀ (s : State) (p : Path) (i : Nat) (w : Word),
    let ps := (s.ring p).consumer.toNat % (16 * 2 ^ (s.geo.tx.get p).size)
    (s.ring p).slotAt ps = ⟨true, some i, false⟩ → i < s.tsm.entries.length → (s.entry i).state = .withdrawing →
    (∀ o, s.ple.op = some o → o.slot ≠ i) →
    let cancelled (t : State) := (∀ a ∈ t.fsp.list, ¬ (a.kind = .withdrawal ∧ a.slot = some i)) ∧
      (∀ a ∈ s.fsp.list, ¬ (a.kind = .withdrawal ∧ a.slot = some i) → a ∈ t.fsp.list) ∧ t.swc.step ≠ some i
    let completed := takeCompletion s p ps w
    let gone := takeTxConsumer s p ((s.ring p).consumer + 1)
    (completed.entry i).state = .done ∧ (completed.entry i).final = some (w.extractLsb' 7 4) ∧ cancelled completed ∧
    ((s.ring p).producer ≠ (s.ring p).consumer →
      (gone.entry i).state = .skipped ∧ (gone.entry i).final = some 12 ∧
      (gone.entry i).finalPending = some true ∧ cancelled gone)) ∧
  (∀ (s : State) (p : Path) (ps : Nat),
    (∀ i, (s.ring p).slotAt ps = ⟨true, some i, false⟩ → (s.entry i).state = .placed →
      takeFetch s p ps =
        { s with tsm.entries := s.tsm.entries.set i { s.entry i with state := .fetched } }) ∧
    (∀ i, ((s.ring p).slotAt ps).mapped = some i → (s.entry i).state ≠ .placed → (s.entry i).state ≠ .withdrawing →
      takeFetch s p ps = s) ∧
    (((s.ring p).slotAt ps).published = false ∨ ((s.ring p).slotAt ps).mapped = none → takeFetch s p ps = s)) ∧
  (∀ (s : State) (p : Path) (ps : Nat) (w : Word) (published : Bool),
    ((s.ring p).slotAt ps = ⟨published, none, true⟩ → takeFetch s p ps = s ∧ takeCompletion s p ps w = s) ∧
    ((s.ring p).slotAt ps = ⟨published, none, false⟩ → takeFetch s p ps = s ∧
      takeCompletion s p ps w = s.faulted .notice .strayCompletion (some p) none))

/-- A terminal completion on a slot mapped to a PLACED, FETCHED or WITHDRAWING entry makes the entry DONE with the written
STATUS, removes the mapping and keeps the slot published, requests the mirror of the whole word to w0 of the service slot, and
meters a radio SENT by the cached length. Of a WITHDRAWING entry it takes the withdrawal write off the list and ends the
migration's step. -/
def Obligations.CompletionIsMirrored : Prop :=
  ∀ (s : State) (p : Path) (ps i : Nat) (w : Word), (s.ring p).slotAt ps = ⟨true, some i, false⟩ →
    ps < (s.ring p).slots.length → i < s.tsm.entries.length →
    ((s.entry i).state = .placed ∨ (s.entry i).state = .fetched ∨ (s.entry i).state = .withdrawing) →
    let t := takeCompletion s p ps w
    let u := if (s.entry i).state = .withdrawing then s.withdrawalCancelled i else s
    t.entry i =
      { s.entry i with
        state := .done, path := none, pslot := none, final := some (w.extractLsb' 7 4), finalPending := some true } ∧
    (∀ j, j ≠ i → t.entry j = s.entry j) ∧
    (t.ring p).slotAt ps = ⟨true, none, false⟩ ∧ (∀ q, q ≠ ps → (t.ring p).slotAt q = (s.ring p).slotAt q) ∧
    (t.ring p).consumer = (s.ring p).consumer ∧ (t.ring p).producer = (s.ring p).producer ∧
    t.ring (otherPath p) = s.ring (otherPath p) ∧
    t.fsp.list = u.fsp.list ++ [⟨.mirror, s.svcTxAddr i 0, [w], some i, none, 0, false, false⟩] ∧
    t.swc = u.swc ∧
    t.umt.rx = s.umt.rx ∧
    t.umt.tx =
      if p = .radio ∧ w.extractLsb' 7 4 = 1 then metered s.umt.tx ((s.entry i).len.getD 0).toNat else s.umt.tx

/-- A terminal's index write within its span is taken. A transmit consumer value passes the slots before it in ring order
(State.passed), all of them before any scan a change of regime prompts (log 25), restarts the stall timer when it advances,
and ends a ring-full wait with the credit test again. A receive producer value that advances is recorded with an arrival
report, joins the arrival list and begins an assignment run, and the ring never holds more than its slots. A transmit
consumer value beyond the producer, and a receive producer value beyond capacity or a step back, change no record and are
terminal misbehaviour. -/
def Obligations.TerminalIndexesAreJudged : Prop :=
  (∀ (s : State) (p : Path) (v : Word),
    let c := (s.ring p).consumer
    let q := (s.ring p).producer
    let t := takeTxConsumer s p v
    ((q - c).toNat < (v - c).toNat →
      t.ple.rings = s.ple.rings ∧
      t = applyCause (s.faulted .path .terminalIndex (some p) none) p .terminalIndex) ∧
    ((v - c).toNat ≤ (q - c).toNat → s.ple.op = none →
      (t.ring p).consumer = v ∧ (t.ring p).producer = q ∧
      (∀ k, k < (v - c).toNat → (t.ring p).slotAt (slotOf (c + BitVec.ofNat 16 k) (s.txSize p)) = clearSlot) ∧
      t.ring (otherPath p) = s.ring (otherPath p) ∧ t.rmu = s.rmu ∧
      (∀ i, (s.entry i).state ≠ .placed → (s.entry i).state ≠ .fetched → (s.entry i).state ≠ .withdrawing →
        t.entry i = s.entry i)) ∧
    (v = c → t = s) ∧
    ((v - c).toNat ≤ (q - c).toNat → v ≠ c →
      let passed := s.passedTo p v
      let u : State := { passed with pmn.recs := passed.pmn.recs.set p { passed.pathRec p with stall := some 0 } }
      ((∀ o, s.ple.op = some o → o.phase ≠ .waiting ∨ o.target ≠ p) → t = u) ∧
      (∀ o, s.ple.op = some o → o.phase = .waiting → o.target = p →
        (u.umt.pool < u.costOf p o.slot →
          ∃ w, u.deferredTo w o.slot ∧ t = w.opEnded o (some ((u.entry o.slot).cls.getD 0))) ∧
        (u.costOf p o.slot ≤ u.umt.pool → (q - v).toNat < s.txSize p → t = u.copyBegun o) ∧
        (u.costOf p o.slot ≤ u.umt.pool → s.txSize p ≤ (q - v).toNat → s.ple.claim ≠ .pending → t = u) ∧
        (u.costOf p o.slot ≤ u.umt.pool → s.txSize p ≤ (q - v).toNat → s.ple.claim = .pending →
          ∃ w, u.requeuedTo w o.slot ∧ t = w.opEnded o none)))) ∧
  (∀ (s : State) (p : Path) (v : Word),
    let r := s.rxRecs p
    let room := (r.consumer + BitVec.ofNat 16 (s.rxSize p) - r.producer).toNat
    let t := takeRxProducer s p v
    (room < (v - r.producer).toNat →
      t.rmu = s.rmu ∧ t = applyCause (s.faulted .path .terminalIndex (some p) none) p .terminalIndex) ∧
    ((v - r.producer).toNat ≤ room →
      (t.rxRecs p).producer = v ∧ (t.rxRecs p).consumer = r.consumer ∧ t.rmu.release = s.rmu.release ∧
      (t.rxRecs (otherPath p)).producer = (s.rxRecs (otherPath p)).producer ∧
      (t.rxRecs (otherPath p)).consumer = (s.rxRecs (otherPath p)).consumer ∧ t.pcf = s.pcf ∧
      (v ≠ r.producer → (t.pathRec p).mark = true) ∧ (v = r.producer → t = s) ∧
      (v ≠ r.producer →
        let h := s.pathRec p
        t = assignRun
          { s with
            rmu.recs := s.rmu.recs.set p { r with producer := v }
            rmu.arrivals := joined s.rmu.arrivals p (v - r.producer).toNat
            pmn.recs :=
              s.pmn.recs.set p { h with mark := true, silence := if h.health = .up then 0 else h.silence } }) ∧
      ((r.producer - r.consumer).toNat ≤ s.rxSize p → s.rxSize p ≤ 256 → (v - r.consumer).toNat ≤ s.rxSize p)))

/-- An assignment run fills service slots from the available record on until the arrival list is empty or the ring is full:
the next waiting path slot of the head batch, found by its path's assigned record, into each; the assigned records advance and
the batch counts fall. It requests header word 2 with the available record exactly when it assigned something. A release
empties the entries from the release record on in ring order, advances the consumer record of each one's path, raises
RELEASE_OVERRUN with the slot of the available record when it goes beyond that, writes back the consumer words 7 and 11 that
moved, and is followed by an assignment run. -/
def Obligations.AssignmentRunFillsRing : Prop :=
  (∀ (s : State) (w : Nat) (v : Word),
    requestHeader s w v = { s with fsp.list := (requestHeader s w v).fsp.list } ∧
    headerRequested
      (s.headerWrite w v (if 4 ≤ w ∧ w ≤ 7 then some .fibre else if 8 ≤ w ∧ w ≤ 11 then some .radio else none))
      s.fsp.list (requestHeader s w v).fsp.list) ∧
  (∀ (s : State) (v : Word), s.rxOccupancy ≤ s.svcRxSize → s.sdc.settings.geometry.svcRx.size ≤ 3 →
    let size := 32 * 2 ^ s.sdc.settings.geometry.svcRx.size
    let n := (v - s.rmu.release).toNat
    let m := min n (s.rmu.available - s.rmu.release).toNat
    let slot (j : Nat) := (s.rmu.release + BitVec.ofNat 16 j).toNat % size
    let count (p : Path) := ((List.range m).filter (fun j =>
      match s.rxEntry (slot j) with | .filled q _ => decide (q = p) | .empty => false)).length
    let ended (p : Path) : RxRecs := { s.rxRecs p with consumer := (s.rxRecs p).consumer + BitVec.ofNat 16 (count p) }
    let emptied : State :=
      { s with
        rmu.entries := (List.range m).foldl (fun l j => l.set (slot j) .empty) s.rmu.entries
        rmu.release := s.rmu.release + BitVec.ofNat 16 m
        rmu.recs := ⟨ended .fibre, ended .radio⟩ }
    let judged := if (s.rmu.available - s.rmu.release).toNat < n then
        emptied.faulted .notice .releaseOverrun none (some (s.rmu.available.toNat % size))
      else emptied
    let fibre := if count .fibre = 0 then judged else requestHeader judged 7 (ended .fibre).consumer
    takeRelease s v = assignRun (if count .radio = 0 then fibre else requestHeader fibre 11 (ended .radio).consumer)) ∧
  (∀ s : State, s.rxOccupancy ≤ s.svcRxSize → s.sdc.settings.geometry.svcRx.size ≤ 3 →
    s.rmu.entries.length = s.svcRxSize → (∀ b ∈ s.rmu.arrivals, 1 ≤ b.count) →
    let t := assignRun s
    let waiting := waitingSlots s.rmu.arrivals
    let k := min waiting.length (s.svcRxSize - s.rxOccupancy)
    let slot (j : Nat) := (s.rmu.available + BitVec.ofNat 16 j).toNat % s.svcRxSize
    t.rmu.available = s.rmu.available + BitVec.ofNat 16 k ∧
    (∀ j p, j < k → waiting[j]? = some p → t.rxEntry (slot j) = .filled p
      (((s.rxRecs p).assigned + BitVec.ofNat 16 ((waiting.take j).count p)).toNat % s.rxSize p)) ∧
    (∀ i, (∀ j, j < k → i ≠ slot j) → t.rxEntry i = s.rxEntry i) ∧
    (∀ p, (t.rxRecs p).assigned = (s.rxRecs p).assigned + BitVec.ofNat 16 ((waiting.take k).count p)) ∧
    waitingSlots t.rmu.arrivals = waiting.drop k ∧ (∀ b ∈ t.rmu.arrivals, 1 ≤ b.count) ∧
    t.rmu.arrivals.map (·.path) <:+ s.rmu.arrivals.map (·.path)) ∧
  ∀ s : State, s.rxOccupancy ≤ s.svcRxSize → s.svcRxSize ≤ 256 → (∀ b ∈ s.rmu.arrivals, 1 ≤ b.count) →
    let t := assignRun s
    (t.rmu.arrivals = [] ∨ t.rxOccupancy = t.svcRxSize) ∧ t.rxOccupancy ≤ t.svcRxSize ∧
    t.rmu.release = s.rmu.release ∧
    (t.rmu.available = s.rmu.available → t = s) ∧
    (t.rmu.available ≠ s.rmu.available → t.fsp = (requestHeader s 2 t.rmu.available).fsp) ∧
    (∀ p, (t.rxRecs p).consumer = (s.rxRecs p).consumer ∧ (t.rxRecs p).producer = (s.rxRecs p).producer) ∧
    t.tsm = s.tsm ∧ t.ple = s.ple ∧ t.umt = s.umt ∧ t.pmn = s.pmn ∧ t.swc = s.swc ∧ t.pcf = s.pcf

/-! ### Setting cycles -/

/-- A setting write is refused by the first test of R176 it fails: the tag, the item, the part state, a command's range, a
POLICY value class 1 forbids; the effect is the refusal's and nothing else, the near data lines as they are (log 27). -/
def Obligations.WriteRefusalOrder : Prop :=
  ∀ (c : Instr) (tag : Tag) (addr : Addr) (v : Word) (s : State), writeOf c = some (tag, addr, v) →
    s.judges .write tag addr →
    let g := (addr.extractLsb' 20 4).toNat
    let i := (addr.extractLsb' 16 4).toNat
    let x := (addr.extractLsb' 8 8).toNat
    (tag ≠ .supervisor → exec c s = .next (s.refusedWith .guard tag addr .write)) ∧
    (tag = .supervisor → ¬ definedWrite g i x → exec c s = .next (s.refusedWith .unknown tag addr .write)) ∧
    (tag = .supervisor → definedWrite g i x → (g = 0 ∨ g = 1 ∨ (g = 5 ∧ i = 6)) → s.pcf.part ≠ .config →
      exec c s = .next (s.refusedWith .state tag addr .write)) ∧
    (tag = .supervisor → g = 6 → ((i = 3 ∧ 3 ≤ v.toNat) ∨ (i = 5 ∧ 2 ≤ v.toNat) ∨ (i = 10 ∧ 128 ≤ v.toNat)) →
      exec c s = .next (s.refusedWith .unknown tag addr .write)) ∧
    (tag = .supervisor → g = 2 → x = 1 → ((i ≤ 3 ∧ (v = 1 ∨ v = 2)) ∨ (i = 6 ∧ v = 1)) →
      exec c s = .next (s.refusedWith .guard tag addr .write))

/-- A taken setting write is read back as written, or as the default when the value is outside the range; every other setting
reads as before. A setting at or below the elapsed time of the timer it governs makes that timer expire at once, as the
expiry's own command does; a stall time brings the stall timers in line first, and takes FIBRE before RADIO (log 23). A
setting that no running timer, table, regime, pool or policy of the radio depends on changes nothing else. A size setting
gives its ring's table the number of empty entries it records (R178, log 12). -/
def Obligations.WrittenSettingReadsBack : Prop :=
  ∀ (c : Instr) (addr : Addr) (v : Word) (s : State), writeOf c = some (.supervisor, addr, v) →
    s.judges .write .supervisor addr → s.sdc.settings.policy.length = 8 →
    let g := (addr.extractLsb' 20 4).toNat
    let i := (addr.extractLsb' 16 4).toNat
    let x := (addr.extractLsb' 8 8).toNat
    definedWrite g i x → g ≤ 5 → ((g = 0 ∨ g = 1 ∨ (g = 5 ∧ i = 6)) → s.pcf.part = .config) →
    (g = 2 → x = 1 → ¬ ((i ≤ 3 ∧ (v = 1 ∨ v = 2)) ∨ (i = 6 ∧ v = 1))) →
    ∃ t, exec c s = .next t ∧ t.rstn = true ∧ t.settle = none ∧ t.nsi.near = none ∧
      (∃ u, exec (.refusedSettingRead .user addr) t = .next u ∧
        u.nsi.dataOut =
          let r := settingRange g i x
          BitVec.ofNat 16 (if r.1 ≤ v.toNat ∧ v.toNat ≤ r.2.1 then v.toNat else r.2.2)) ∧
      (∀ b : Addr, (b.extractLsb' 20 4).toNat ≤ 5 → ¬ sameItem addr b →
        ∃ u w, exec (.refusedSettingRead .user b) t = .next u ∧
          exec (.refusedSettingRead .user b) { s with nsi.near := none } = .next w ∧ u.nsi.dataOut = w.nsi.dataOut) ∧
      (g = 0 ∨ g = 2 ∨ (g = 1 ∧ i ≠ 1 ∧ i ≠ 3 ∧ i ≠ 6 ∧ i ≠ 10) ∨ (g = 3 ∧ (i ≤ 2 ∨ (6 ≤ i ∧ i ≤ 10) ∨ 14 ≤ i)) ∨
          (g = 4 ∧ i = 3) ∨ (g = 5 ∧ (i = 2 ∨ i = 3)) →
        t = { s with nsi.near := none, sdc.settings := t.sdc.settings }) ∧
      (let stored : State := { s with nsi.near := none, sdc.settings := t.sdc.settings };
        (g = 3 →
          (i = 3 → t = stored.expired (.confirmTimerExpiry .fibre)) ∧
          (i = 4 → t = stored.expired (.confirmTimerExpiry .radio)) ∧
          (i = 5 → t =
            (stored.timersInLine.expired (.stallTimerExpiry .fibre)).expired (.stallTimerExpiry .radio)) ∧
          (i = 11 → t = stored.expired (.quietTimerExpiry .voice)) ∧
          (i = 12 → t = stored.expired (.quietTimerExpiry .emergency)) ∧
          (i = 13 → t = stored.expired .failbackWaitExpiry)) ∧
        (g = 4 →
          (i = 1 → t = stored.expired .attachTimerExpiry) ∧
          (i = 2 → t = stored.expired .powerOffTimerExpiry) ∧
          (i = 4 → t = stored.expired .keepTimerExpiry) ∧
          (i = 5 → t = stored.expired .mainsConfirmExpiry)) ∧
        (g = 5 → i = 4 → t = stored.expired .creditRefill) ∧
        (g = 1 →
          let geo := t.sdc.settings.geometry
          let ring (r : RingSetting) : TxRing := ⟨List.replicate (16 * 2 ^ r.size) clearSlot, 0, 0⟩
          (i = 1 → t = { stored with tsm := ⟨List.replicate (32 * 2 ^ geo.svcTx.size) freeEntry, 0, 0, 0⟩ }) ∧
          (i = 3 → t = { stored with
            rmu := ⟨List.replicate (32 * 2 ^ geo.svcRx.size) .empty, 0, 0, ⟨⟨0, 0, 0⟩, ⟨0, 0, 0⟩⟩, []⟩ }) ∧
          (i = 6 → t = { stored with ple.rings.fibre := ring geo.tx.fibre }) ∧
          (i = 10 → t = { stored with ple.rings.radio := ring geo.tx.radio })))

/-- A setting read is refused for a terminal's tag and for an undefined item, also where that item is the alert pending set,
whose seen set NOTICE then leaves (log 24). Else it is answered with the value that stands, by the tables of R182 to R185 for
every group, item and index they define (log 16), and changes nothing but the answer and what the five latching reads and the
alert pending read latch. -/
def Obligations.SettingReadsAnswer : Prop :=
  ∀ (c : Instr) (tag : Tag) (addr : Addr) (s : State), readOf c = some (tag, addr) → s.judges .read tag addr →
    let g := (addr.extractLsb' 20 4).toNat
    let i := (addr.extractLsb' 16 4).toNat
    let x := (addr.extractLsb' 8 8).toNat
    (tag = .fibreTerm ∨ tag = .radioTerm → exec c s = .next (s.refusedWith .guard tag addr .read)) ∧
    (tag = .supervisor ∨ tag = .user → ¬ definedRead g i x →
      exec c s = .next (s.refusedWith .unknown tag addr .read)) ∧
    (tag = .supervisor ∨ tag = .user → definedRead g i x → exec c s = .next
      { s.latched g i x with nsi.near := none, nsi.dataOut := BitVec.ofNat 16 (s.reading g i x) })

/-- The five latching reads copy what they latch whole and return its first word, in one event. -/
def Obligations.LatchingReadsSnapshot : Prop :=
  ∀ (s : State) (tag : Tag) (x : BitVec 8), s.rstn = true → s.settle = none → s.nsi.near = none →
    tag = .supervisor ∨ tag = .user →
    let classOf (r : Option FaultRec) : Word :=
      match r with
      | none => 0
      | some r => match r.cls with | .notice => 1 | .path => 2 | .transfer => 3 | .integrity => 4
    let mib := (s.umt.tx.toNat + s.umt.rx.toNat) / 1048576
    exec (.meterSnapshotRead tag) s = .next
      { s with umt.holdTx := s.umt.tx, umt.holdRx := s.umt.rx, nsi.dataOut := s.umt.tx.extractLsb' 0 16 } ∧
    exec (.summaryLatchRead tag) s = .next
      { s with
        umt.latch := BitVec.ofNat 32 (if mib ≤ 0xFFFFFFFF then mib else 0xFFFFFFFF)
        nsi.dataOut := BitVec.ofNat 16 (if mib ≤ 0xFFFFFFFF then mib else 0xFFFFFFFF) } ∧
    exec (.uptimeLatchRead tag) s = .next
      { s with sdc.uptimeHold := s.clock.uptime, nsi.dataOut := s.clock.uptime.extractLsb' 0 16 } ∧
    exec (.faultRecordLatchRead .first tag) s = .next
      { s with sdc.firstHold := s.pcf.first, nsi.dataOut := classOf s.pcf.first } ∧
    exec (.faultRecordLatchRead .last tag) s = .next
      { s with sdc.lastHold := s.pcf.last, nsi.dataOut := classOf s.pcf.last } ∧
    exec (.alertPendingRead tag x) s = .next
      { s with sdc.seen := s.pcf.pending, nsi.dataOut := 0#9 ++ s.pcf.pending }

/-- A burst made with CFGN low is refused whole, with one notice and cause BURST (log 21: the command is the whole burst), and a
write burst leaves the near data lines as they are (log 27). -/
def Obligations.SettingBurstIsRefused : Prop :=
  ∀ (s : State) (tag : Tag) (addr : Addr) (dir : Dir), s.rstn = true → s.settle = none →
    (s.nsi.near = none ∨
      ∃ c, s.nsi.near = some c ∧ c.cfgn = false ∧ c.burst = true ∧ c.dir = dir ∧ c.tag = tag ∧ c.addr = addr) →
    exec (.settingBurst tag addr dir) s = .next (s.refusedWith .burst tag addr dir)

/-- During the settle a setting write is not taken, a setting read or burst read returns 0 and latches nothing, and nothing
is refused or raised. -/
def Obligations.SettleAnswersNothing : Prop :=
  ∀ (s : State), s.rstn = true → s.settle ≠ none → s.nsi.near = none →
    (∀ c w, writeOf c = some w → exec c s = .next s) ∧
    (∀ c r, readOf c = some r → exec c s = .next { s with nsi.dataOut := 0 }) ∧
    (∀ tag addr, exec (.settingBurst tag addr .write) s = .next s ∧
      exec (.settingBurst tag addr .read) s = .next { s with nsi.dataOut := 0 })

/-- A standby policy equal to the one in force changes nothing; ON_DEMAND starts the keep timer while the fibre serves;
ALWAYS_ON stops it; a radio in STANDBY is powered up, DOWN, with its attach timer at 0. RADIO_RESTART does the same from
STANDBY and FAILED with the retry count 0, and is refused in POWERED and CYCLING. -/
def Obligations.RadioCommandsPowerUp : Prop :=
  (∀ (s : State) (x : BitVec 8) (v : Word), s.judges .write .supervisor (settingAddr 4 0 x) →
    let p : Standby := if v = 1 then .onDemand else .alwaysOn
    let keep : Timer :=
      if p = .alwaysOn then none else if s.swc.service = some .fibre then some 0 else s.pmn.power.keep
    let stored : State := { s with nsi.near := none, sdc.settings.radio.standby := p, pmn.power.keep := keep }
    let powered : State :=
      { stored with
        pmn.recs.radio.health := .down
        pmn.power := { phase := .powered, attach := some 0, off := s.pmn.power.off, keep := keep, retry := s.pmn.power.retry } }
    (p = s.sdc.settings.radio.standby →
      exec (.standbyPolicySetting .supervisor x v) s = .next { s with nsi.near := none }) ∧
    (p ≠ s.sdc.settings.radio.standby → s.pmn.power.phase = .standby →
      exec (.standbyPolicySetting .supervisor x v) s = .next (settleWork powered)) ∧
    (p ≠ s.sdc.settings.radio.standby → s.pmn.power.phase ≠ .standby →
      exec (.standbyPolicySetting .supervisor x v) s = .next (settleWork stored))) ∧
  (∀ (s : State) (x : BitVec 8) (v : Word), s.judges .write .supervisor (settingAddr 6 6 x) →
    (s.pmn.power.phase = .powered ∨ s.pmn.power.phase = .cycling →
      exec (.radioRestart .supervisor x v) s =
        .next (s.refusedWith .state .supervisor (settingAddr 6 6 x) .write)) ∧
    (s.pmn.power.phase = .standby ∨ s.pmn.power.phase = .failed →
      exec (.radioRestart .supervisor x v) s = .next
        { s with
          nsi.near := none
          pmn.recs.radio.health := .down
          pmn.power :=
            { phase := .powered
              attach := some 0
              off := s.pmn.power.off
              keep :=
                if s.sdc.settings.radio.standby = .onDemand ∧ s.swc.service = some .fibre then some 0
                else s.pmn.power.keep
              retry := 0 } }))

/-- A cap, a preset and PERIOD_RESTART compute the regime again by R149; a preset replaces one word of one meter; a ceiling
clips the pool to itself and prompts nothing; the pool, the hold words and the latch are else kept. -/
def Obligations.MeterCommandsComputeRegime : Prop :=
  (∀ (s : State) (c : Cap) (x : BitVec 8) (v : Word),
    s.judges .write .supervisor (settingAddr 5 (match c with | .soft => 0 | .hard => 1) x) →
    exec (.capSetting c .supervisor x v) s = .next (settleWork
      (match c with
        | .soft => ({ s with nsi.near := none, sdc.settings.metering.softCap := v.toNat } : State)
        | .hard => { s with nsi.near := none, sdc.settings.metering.hardCap := v.toNat }).regimed)) ∧
  (∀ (s : State) (x : BitVec 8) (v : Word), s.judges .write .supervisor (settingAddr 6 7 x) →
    exec (.periodRestart .supervisor x v) s = .next (settleWork
      ({ s with nsi.near := none, umt.tx := 0, umt.rx := 0 } : State).regimed)) ∧
  (∀ (s : State) (x : BitVec 8) (v : Word), s.judges .write .supervisor (settingAddr 5 6 x) → s.pcf.part = .config →
    x.toNat ≤ 7 →
    ∃ tx rx, exec (.meterPreset .supervisor x v) s = .next
        ({ s with nsi.near := none, umt.tx := tx, umt.rx := rx } : State).regimed ∧
      (x.toNat ≤ 3 → rx = s.umt.rx ∧ ∀ j, j ≤ 3 → (tx.extractLsb' (16 * j) 16 : Word) =
        if j = x.toNat then v else s.umt.tx.extractLsb' (16 * j) 16) ∧
      (4 ≤ x.toNat → tx = s.umt.tx ∧ ∀ j, j ≤ 3 → (rx.extractLsb' (16 * j) 16 : Word) =
        if j = x.toNat - 4 then v else s.umt.rx.extractLsb' (16 * j) 16)) ∧
  (∀ (s : State) (x : BitVec 8) (v : Word), s.judges .write .supervisor (settingAddr 5 5 x) →
    let ceiling := if v = 0 then 16000 else v.toNat
    exec (.poolCeilingSetting .supervisor x v) s = .next
      { s with
        nsi.near := none
        sdc.settings.metering.ceiling := ceiling
        umt.pool := if ceiling < s.umt.pool then ceiling else s.umt.pool })

/-! ### Commands -/

/-- START is refused outside CONFIG and when the geometry does not fit; else the part is STARTING, every table is empty at
its ring's size, and the read of header word 0 is requested. -/
def Obligations.StartChecksGeometry : Prop :=
  ∀ (s : State) (x : BitVec 8) (v : Word), s.judges .write .supervisor (settingAddr 6 0 x) →
    (s.pcf.part ≠ .config → exec (.start .supervisor x v) s =
      .next (s.refusedWith .state .supervisor (settingAddr 6 0 x) .write)) ∧
    (s.pcf.part = .config → ¬ s.geo.fits → exec (.start .supervisor x v) s =
      .next (s.refusedWith .geometry .supervisor (settingAddr 6 0 x) .write)) ∧
    (s.pcf.part = .config → s.geo.fits → exec (.start .supervisor x v) s = .next
      { s with
        nsi.near := none
        pcf.part := .starting
        tsm := ⟨List.replicate (32 * 2 ^ s.geo.svcTx.size) freeEntry, 0, 0, 0⟩
        ple := ⟨[], [], s.ple.copyBuf, none, false, false, none, .none,
          ⟨⟨List.replicate (16 * 2 ^ s.geo.tx.fibre.size) clearSlot, 0, 0⟩,
            ⟨List.replicate (16 * 2 ^ s.geo.tx.radio.size) clearSlot, 0, 0⟩⟩⟩
        rmu := ⟨List.replicate (32 * 2 ^ s.geo.svcRx.size) .empty, 0, 0, ⟨⟨0, 0, 0⟩, ⟨0, 0, 0⟩⟩, []⟩
        fsp.list := s.fsp.list ++
          [⟨.startRead, BitVec.ofNat 24 (s.geo.header.value.toNat * 256), [], none, none, 0, false, false⟩] })

/-- HALT is refused outside ACTIVE; in ACTIVE the part enters HALTED: the maps and queues stay as they are, the scan and the
claim end, the service path is NONE with both activity flags clear and the wait stopped, no stall timer runs, and no fault
or alert is raised. -/
def Obligations.HaltFreezesPart : Prop :=
  ∀ (s : State) (x : BitVec 8) (v : Word), s.judges .write .supervisor (settingAddr 6 1 x) →
    (s.pcf.part ≠ .active → exec (.halt .supervisor x v) s =
      .next (s.refusedWith .state .supervisor (settingAddr 6 1 x) .write)) ∧
    (s.pcf.part = .active → ∃ t, exec (.halt .supervisor x v) s = .next t ∧
      t.pcf = { s.pcf with part := .halted } ∧ t.tsm = s.tsm ∧ t.ple = { s.ple with scan := none, claim := .none } ∧
      t.rmu = s.rmu ∧ t.umt = s.umt ∧ t.sdc = s.sdc ∧ t.fsp = { s.fsp with streak := 0 } ∧
      t.nsi = { s.nsi with near := none } ∧ t.clock = s.clock ∧ t.lines = s.lines ∧
      t.swc =
        { s.swc with
          service := none, state := .steady, target := none, kind := none, step := none, voice := ⟨false, none⟩,
          emergency := ⟨false, none⟩, wait := none, expired := false } ∧
      (∀ p, (t.pathRec p).stall = none) ∧ (s.swc.service = some .fibre → t.pmn.power.keep = none) ∧
      (t.pathRec .fibre).health = (s.pathRec .fibre).health)

/-- RECONFIGURE is refused in STARTING and ACTIVE; in HALTED and CONFIG the part is CONFIG with its maps, queues, tables,
migration list, short-write list, copy request, reissue and near streak cleared; a far cycle in flight is cut off; all else
is kept. -/
def Obligations.ReconfigureClearsTables : Prop :=
  ∀ (s : State) (x : BitVec 8) (v : Word), s.judges .write .supervisor (settingAddr 6 2 x) →
    (s.pcf.part = .starting ∨ s.pcf.part = .active → exec (.reconfigure .supervisor x v) s =
      .next (s.refusedWith .state .supervisor (settingAddr 6 2 x) .write)) ∧
    (s.pcf.part = .config ∨ s.pcf.part = .halted → exec (.reconfigure .supervisor x v) s = .next
      { s with
        nsi.near := none
        pcf.part := .config
        tsm := ⟨List.replicate (32 * 2 ^ s.geo.svcTx.size) freeEntry, 0, 0, 0⟩
        ple := ⟨[], [], s.ple.copyBuf, none, false, false, none, .none,
          ⟨⟨List.replicate (16 * 2 ^ s.geo.tx.fibre.size) clearSlot, 0, 0⟩,
            ⟨List.replicate (16 * 2 ^ s.geo.tx.radio.size) clearSlot, 0, 0⟩⟩⟩
        rmu := ⟨List.replicate (32 * 2 ^ s.geo.svcRx.size) .empty, 0, 0, ⟨⟨0, 0, 0⟩, ⟨0, 0, 0⟩⟩, []⟩
        swc.list := []
        swc.voice := ⟨false, none⟩
        swc.emergency := ⟨false, none⟩
        swc.wait := none
        swc.expired := false
        fsp :=
          { s.fsp with
            port := match s.fsp.port with | .part a => .part { a with void := true } | q => q
            list := [], copyReq := none, reissue := none, streak := 0 } })

/-- What a migration's start does: the switch state, target and kind, the service path, the claim, and the activity flags
and NO_PATH when the target is NONE. A change of the service path is reported to the path monitor: to FIBRE under ON_DEMAND it
starts the keep timer, away from FIBRE it stops it, and a radio in STANDBY is powered up, since the standby condition cannot
hold. -/
def Obligations.MigrationStart : Prop :=
  ∀ (s : State) (target : Option Path) (kind : MigrationKind),
    let t := startMigration s target kind
    t.swc.state = .migrating ∧ t.swc.target = some target ∧ t.swc.kind = some kind ∧ t.swc.service = target ∧
    t.ple.claim = .pending ∧ t.swc.list = s.swc.list ∧ t.swc.force = s.swc.force ∧ t.swc.mode = s.swc.mode ∧
    (s.ple.scan ≠ none → t.ple.rexPending = false ∧ t.ple.rescan = false) ∧
    (s.ple.op = none → t.ple.scan = none ∧ t.tsm = s.tsm ∧ t.ple.placementQ = s.ple.placementQ) ∧
    (∀ o, s.ple.op = some o → o.phase ≠ .waiting → t.ple.op = some o ∧ t.tsm = s.tsm) ∧
    (∀ o, s.ple.op = some o → o.phase = .waiting → t.ple.op = none ∧ (o.kind = .release → t.ple.scan = none) ∧
      t.tsm.entries = s.tsm.entries.set o.slot
        { s.entry o.slot with state := .posted, path := none, pslot := none } ∧
      insertedAt (fun j => t.slotOrder j) o.slot s.ple.placementQ t.ple.placementQ) ∧
    (target = none → t.swc.voice = ⟨false, none⟩ ∧ t.swc.emergency = ⟨false, none⟩ ∧
      t.pcf = (s.faulted .path .noPath none none).pcf ∧ t.sdc = (s.faulted .path .noPath none none).sdc) ∧
    (target ≠ none → t.swc.voice = s.swc.voice ∧ t.swc.emergency = s.swc.emergency ∧ t.pcf = s.pcf ∧ t.sdc = s.sdc) ∧
    t.ple.deferralQ = s.ple.deferralQ ∧ t.ple.rings = s.ple.rings ∧ t.rmu = s.rmu ∧ t.umt = s.umt ∧ t.fsp = s.fsp ∧
    t.swc.failovers = s.swc.failovers ∧ t.swc.failbacks = s.swc.failbacks ∧
    (s.swc.service = target → t.pmn = s.pmn) ∧
    (s.swc.service ≠ target →
      let onDemand := s.sdc.settings.radio.standby = .onDemand
      let keep : Timer := if target ≠ some .fibre then none else if onDemand then some 0 else s.pmn.power.keep
      let asleep := s.pmn.power.phase = .standby ∧
        ¬ (onDemand ∧ (s.pathRec .fibre).health = .up ∧ target = some .fibre ∧ keep = none)
      t.pmn =
        if asleep then
          { s.pmn with
            power := { s.pmn.power with phase := .powered, attach := some 0, keep := keep }
            recs := ⟨s.pathRec .fibre, { s.pathRec .radio with health := .down }⟩ }
        else { s.pmn with power := { s.pmn.power with keep := keep } })

/-- FORCE_PATH: a release is always taken and tests the automatic failback; a named path is refused by the first condition
of R126 that applies; a taken one sets the force state, ends the wait on the serving path, or begins a forced migration. -/
def Obligations.ForcePathTable : Prop :=
  ∀ (s : State) (x : BitVec 8) (v : Word), s.judges .write .supervisor (settingAddr 6 3 x) →
    let refused (c : RefusalCause) : State := s.refusedWith c .supervisor (settingAddr 6 3 x) .write
    (v = 0 → exec (.forcePath .supervisor x v) s =
      .next (settleWork (failbackTest { s with nsi.near := none, swc.force := none }))) ∧
    (∀ p, v = (match p with | .fibre => 1 | .radio => 2) →
      let forced : State := { s with nsi.near := none, swc.force := some p }
      (s.pcf.part ≠ .active → exec (.forcePath .supervisor x v) s = .next (refused .state)) ∧
      (s.pcf.part = .active →
        (s.swc.state = .migrating → exec (.forcePath .supervisor x v) s = .next (refused .busy)) ∧
        (s.swc.state ≠ .migrating → s.swc.emergency.flag = true →
          exec (.forcePath .supervisor x v) s = .next (refused .guarded)) ∧
        (s.swc.state ≠ .migrating → s.swc.emergency.flag = false →
          ((s.pathRec p).health ≠ .up → exec (.forcePath .supervisor x v) s = .next (refused .state)) ∧
          ((s.pathRec p).health = .up → s.swc.service = some p → s.swc.state = .steady →
            exec (.forcePath .supervisor x v) s = .next forced) ∧
          ((s.pathRec p).health = .up → s.swc.service = some p → s.swc.state = .waiting →
            exec (.forcePath .supervisor x v) s =
              .next { forced with swc.state := .steady, swc.wait := none, swc.expired := false }) ∧
          ((s.pathRec p).health = .up → s.swc.service ≠ some p →
            exec (.forcePath .supervisor x v) s = .next (settleWork
              (startMigration { forced with swc.wait := none, swc.expired := false } (some p) .forced))))))

/-- FAILBACK_NOW is taken or refused by the first line of its table that applies; taken, it releases the force state, stops
the wait and begins a failback migration toward the fibre, whatever the failback mode and the value written. -/
def Obligations.FailbackNowTable : Prop :=
  ∀ (s : State) (x : BitVec 8) (v : Word), s.judges .write .supervisor (settingAddr 6 4 x) →
    let refused (c : RefusalCause) : State := s.refusedWith c .supervisor (settingAddr 6 4 x) .write
    let taken := startMigration { s with nsi.near := none, swc.force := none, swc.wait := none, swc.expired := false }
      (some .fibre) .failback
    exec (.failbackNow .supervisor x v) s = .next
      (if s.pcf.part ≠ .active then refused .state
      else if s.swc.state = .migrating then refused .busy
      else if s.swc.emergency.flag = true then refused .guarded
      else if s.swc.service ≠ some .radio ∨ (s.pathRec .fibre).health ≠ .up then refused .state
      else settleWork taken) ∧
    taken.swc.force = none ∧ taken.swc.mode = s.swc.mode ∧ taken.swc.wait = none ∧ taken.swc.expired = false ∧
    taken.swc.state = .migrating ∧ taken.swc.kind = some .failback ∧ taken.swc.target = some (some .fibre) ∧
    taken.swc.service = some .fibre

/-- FAILBACK_MODE: AUTO empties the flap list and tests the automatic failback; MANUAL ends a wait and raises FAILBACK_HELD.
The test itself acts only when the radio serves in STEADY with the fibre UP: MANUAL raises FAILBACK_HELD, and AUTO with no
force begins the wait, which proceeds at once when no activity guards it. -/
def Obligations.FailbackModeAndTest : Prop :=
  (∀ (s : State) (x : BitVec 8) (v : Word), s.judges .write .supervisor (settingAddr 6 5 x) →
    (v = 0 → exec (.failbackMode .supervisor x v) s =
      .next (settleWork (failbackTest { s with nsi.near := none, swc.mode := .auto, pmn.flaps := [] }))) ∧
    (v = 1 → s.swc.state ≠ .waiting → exec (.failbackMode .supervisor x v) s =
      .next { s with nsi.near := none, swc.mode := .manual }) ∧
    (v = 1 → s.swc.state = .waiting → exec (.failbackMode .supervisor x v) s = .next
      (({ s with
        nsi.near := none, swc.mode := .manual, swc.state := .steady, swc.wait := none, swc.expired := false } :
        State).alerted 0x40))) ∧
  (∀ s : State,
    let applies := s.pcf.part = .active ∧ s.swc.state = .steady ∧ s.swc.service = some .radio ∧
      (s.pathRec .fibre).health = .up
    let waiting : State := ({ s with swc.state := .waiting, swc.wait := some 0, swc.expired := false } : State).alerted 0x40
    (¬ applies → failbackTest s = s) ∧
    (applies → s.swc.mode = .manual → failbackTest s = s.alerted 0x40) ∧
    (applies → s.swc.mode = .auto → s.swc.force ≠ none → failbackTest s = s) ∧
    (applies → s.swc.mode = .auto → s.swc.force = none →
      (s.swc.emergency.flag = true ∨ s.swc.voice.flag = true → failbackTest s = waiting) ∧
      (s.swc.emergency.flag = false → s.swc.voice.flag = false →
        failbackTest s = startMigration { waiting with swc.wait := none } (some .fibre) .failback)))

/-- CLEAR_ALERTS removes the seen causes from the pending set and empties the seen set. A cause raised after the last read
of the pending item, or together with the clear in either order, stays pending; one raised before the read and cleared
after it does not. -/
def Obligations.ClearAlertsKeepsUnseen : Prop :=
  ∀ (s : State) (x y : BitVec 8) (v : Word), s.rstn = true → s.settle = none → s.nsi.near = none →
    let cleared (u : State) : State := { u with pcf.pending := u.pcf.pending &&& ~~~ u.sdc.seen, sdc.seen := 0 }
    exec (.clearAlerts .supervisor x v) s = .next (cleared s) ∧
    (s.sdc.seen = 0 → (cleared s).pcf = s.pcf) ∧
    (∀ a, (cleared (raiseAlert s a)).pcf.pending &&& alertBit a = alertBit a ∧
      (raiseAlert (cleared s) a).pcf.pending &&& alertBit a = alertBit a) ∧
    (∀ a, ∃ u, exec (.alertPendingRead .user y) (raiseAlert s a) = .next u ∧
      u.nsi.dataOut = 0#9 ++ (s.pcf.pending ||| alertBit a) ∧ (cleared u).pcf.pending &&& alertBit a = 0) ∧
    (∀ a, ∃ u, exec (.alertPendingRead .user y) s = .next u ∧
      (cleared (raiseAlert u a)).pcf.pending &&& alertBit a = alertBit a)

/-- A fault of each cause is taken with its class: the first record when it is empty (an INTEGRITY fault not in HALTED or
CONFIG), the last record, the class's count up to 255, and the class's alert. CLEAR_FAULTS empties both records, the counts
and the refusal record and keeps the holds and the alerts. ALERT_ENABLE replaces the mask, and ALRT is high exactly when the
pending set and the mask share a cause. -/
def Obligations.FaultRecordsAndAlertLine : Prop :=
  (∀ (s : State) (path : Option Path) (slot : Option Nat),
    (∀ c, c ∈ [FaultCause.lateWrite, .postOverrun, .reclaimOverrun, .releaseOverrun, .guardedWrite, .settingRefused,
      .strayCompletion, .invalidDescriptor, .deferralFull] → takeFault s c path slot = s.faulted .notice c path slot) ∧
    (∀ c, c ∈ [FaultCause.pathDown, .terminalIndex, .attachTimeout, .radioFailed, .flapLimit, .noPath] →
      takeFault s c path slot = s.faulted .path c path slot) ∧
    takeFault s .farTimeout path slot = s.faulted .transfer .farTimeout path slot ∧
    (∀ c, c ∈ [FaultCause.farTimeoutRepeated, .timeoutInSwitch] →
      takeFault s c path slot = s.faulted .integrity c path slot)) ∧
  ∀ (s : State) (x : BitVec 8) (v : Word), s.rstn = true → s.settle = none → s.nsi.near = none →
    exec (.clearFaults .supervisor x v) s = .next
      { s with
        pcf.first := none, pcf.last := none, pcf.counts := ⟨0, 0, 0, 0⟩
        sdc.refusal := ⟨.none, 0, 0, 0, .supervisor, .read⟩ } ∧
    (v.toNat ≤ 127 → ∃ t, exec (.alertEnable .supervisor x v) s = .next t ∧
      t = { s with pcf.mask := v.extractLsb' 0 7 } ∧
      (t.alrt = true ↔ ∃ k, k < 7 ∧ s.pcf.pending.getLsbD k = true ∧ v.getLsbD k = true))

/-! ### The far port -/

/-- A grant of the far port goes by the first line of R165's table that applies; a port in use, or whose near run goes on
with the word presented, grants nothing, and a port is open where it is free, where its near run has ended before the word
presented, and where it is left with a word whose near cycle is gone (log 7). The near streak counts near grants made while
part work waits and is 0 whenever none waits. A near run waits with a word that is ready, a write with its data word; its
grant decides the word, begins its far transfer, drives its lines and has its owner take it, in one event, and the word stays
in transfer until NEAR_WORD_GRANT ends it (log 8). FSEL is high on a free port and where the word presented does not go on
with the near run. A read's far cycle leaves FD as it is (log 26). -/
def Obligations.FarGrantTable : Prop :=
  ∀ s : State,
    let short := (s.pcf.part = .starting ∨ s.pcf.part = .active) ∧ s.fsp.list ≠ []
    let copy := s.pcf.part = .active ∧ s.fsp.copyReq ≠ none
    let reissue := (s.pcf.part = .starting ∨ s.pcf.part = .active) ∧ s.fsp.reissue ≠ none
    let near := s.nearWaits ∧ ((¬ short ∧ ¬ copy) ∨ s.fsp.streak < 4)
    let inUse := (∃ w, s.fsp.port = .nearHeld w) ∨ (∃ a, s.fsp.port = .part a) ∨
      ∃ c fa, s.presents c fa ∧ s.runContinues fa
    let opens := s.fsp.port = .free ∨ (∃ w, s.fsp.port = .nearOrphan w) ∨
      ((∃ last, s.fsp.port = .nearRun last) ∧ ∀ c fa, s.presents c fa → ¬ s.runContinues fa)
    (s.rstn = false → exec .farGrant s = .next s) ∧
    (s.rstn = true → inUse → ∃ t, exec .farGrant s = .next t ∧
      (short ∨ copy → t = s) ∧ (¬ short → ¬ copy → t = { s with fsp.streak := 0 })) ∧
    (s.rstn = true → opens →
      (∀ a, reissue → s.fsp.reissue = some a →
        exec .farGrant s = .next (({ s with fsp.reissue := none } : State).grantedTo a)) ∧
      (¬ reissue → near → ∀ c fa, s.presents c fa → exec .farGrant s = .next
        (settleWork
          { ({ s with fsp.port := .free, fsp.streak := if short ∨ copy then s.fsp.streak + 1 else 0 } : State).wordTaken
              c fa (c.data.getD 0) with
            fsp.port := .nearHeld ⟨fa, c.dir, c.tag⟩ })) ∧
      (∀ a rest, ¬ reissue → ¬ near → short → s.fsp.list = a :: rest →
        exec .farGrant s = .next (({ s with fsp.list := rest } : State).grantedTo a)) ∧
      (∀ a, ¬ reissue → ¬ near → ¬ short → copy → s.fsp.copyReq = some a →
        exec .farGrant s = .next (({ s with fsp.copyReq := none } : State).grantedTo a)) ∧
      (¬ reissue → ¬ near → ¬ short → ¬ copy → exec .farGrant s = .next
        { s with fsp.port := .free, fsp.streak := 0 })) ∧
    (s.fsel = true ↔ s.fsp.port = .free ∨ ∃ last, s.fsp.port = .nearRun last ∧
      ∀ c fa, s.presents c fa → fa.toNat ≠ last.toNat + 1)

/-- A near word that meets the far hold limit: a read returns 0xFFFF, TRANSFER fault FAR_TIMEOUT is raised once with the
path of a terminal's tag, the port is free, and each later word of the cycle completes with no far access, untaken. A word
whose near cycle SEL has ended stays in the port until its limit (log 7), and with no word in transfer the limit is no event
(log 3). A write leaves the near data lines as they are (log 27). -/
def Obligations.NearWordMeetsHoldLimit : Prop :=
  (∀ (s : State) (w : NearFlight) (c : NearCycle), s.fsp.port = .nearHeld w → s.nsi.near = some c →
    exec .farHoldLimit s = .next
      (({ s with
        nsi.near := if s.cycleLength c ≤ c.pos + 1 then none else some { c with pos := c.pos + 1, dead := true, data := none }
        nsi.dataOut := if w.dir = .read then 0xFFFF else s.nsi.dataOut
        fsp.port := .free
        fsp.holdTimer := 256 } : State).faulted .transfer .farTimeout
        (match w.tag with | .fibreTerm => some .fibre | .radioTerm => some .radio | _ => none) none)) ∧
  (∀ (s : State) (w : NearFlight), s.fsp.port = .nearOrphan w →
    exec .farHoldLimit s = .next
      (({ s with fsp.port := .free, fsp.holdTimer := 256 } : State).faulted .transfer .farTimeout
        (match w.tag with | .fibreTerm => some .fibre | .radioTerm => some .radio | _ => none) none)) ∧
  (∀ (s : State) (c : NearCycle) (data : Word) (fhold : Bool), s.rstn = true → s.nsi.near = some c → c.cfgn = true →
    c.dead = true →
    exec (.nearWordGrant data fhold) s = .next (settleWork
      { s with
        nsi.near := if s.cycleLength c ≤ c.pos + 1 then none else some { c with pos := c.pos + 1, data := none }
        nsi.dataOut := if c.dir = .read then 0xFFFF else s.nsi.dataOut })) ∧
  (∀ s : State, (s.fsp.port = .free ∨ ∃ l, s.fsp.port = .nearRun l) → exec .farHoldLimit s = .next s)

/-- The ladder of a part access that meets the far hold limit: a first attempt outside a migration raises TRANSFER
FAR_TIMEOUT and is marked for the same far cycle again; a reissue raises INTEGRITY FAR_TIMEOUT_REPEATED; any attempt in
MIGRATING raises INTEGRITY TIMEOUT_IN_SWITCH; an INTEGRITY fault takes ACTIVE or STARTING to HALTED. An access that
RECONFIGURE has cut off is not reissued (R190). -/
def Obligations.PartAccessLadder : Prop :=
  ∀ (s : State) (a : Access), s.fsp.port = .part a →
    let ended : State := { s with fsp.port := .free, fsp.holdTimer := 256 }
    let stopped (u t : State) : Prop :=
      t.pcf = { u.pcf with part := if s.pcf.part = .active ∨ s.pcf.part = .starting then .halted else s.pcf.part } ∧
      t.sdc = u.sdc ∧ t.fsp.reissue = s.fsp.reissue ∧ t.fsp.list = s.fsp.list ∧ t.fsp.copyReq = s.fsp.copyReq ∧
      t.fsp.port = .free ∧ t.tsm = s.tsm ∧ t.rmu = s.rmu ∧ t.ple.rings = s.ple.rings ∧
      (s.pcf.part = .active ∨ s.pcf.part = .starting → t.swc.service = none ∧ t.swc.state = .steady)
    (s.swc.state ≠ .migrating → a.again = false → exec .farHoldLimit s = .next
      (if a.void then ended.faulted .transfer .farTimeout a.path a.slot
      else { ended.faulted .transfer .farTimeout a.path a.slot with fsp.reissue := some { a with again := true } })) ∧
    (s.swc.state ≠ .migrating → a.again = true → ∃ t, exec .farHoldLimit s = .next t ∧
      stopped (s.faulted .integrity .farTimeoutRepeated a.path a.slot) t) ∧
    (s.swc.state = .migrating → ∃ t, exec .farHoldLimit s = .next t ∧
      stopped (s.faulted .integrity .timeoutInSwitch a.path a.slot) t)

/-- Validation of a PLACEMENT or RE-DECISION by the cached length: 0 or more than 2047 makes the entry SKIPPED with status
11, raises INVALID_DESCRIPTOR with the slot and no path, and requests the final write with the cached class; a length from 1
to 2047 never does. -/
def Obligations.InvalidLengthIsSkipped : Prop :=
  ∀ (s : State) (a : Access) (o : Operation) (d : Descriptor), s.carries .placementRead a → s.ple.op = some o →
    o.kind ≠ .release → o.slot < s.tsm.entries.length →
    let b := ({ s with fsp.port := .free } : State).readInto o.slot d
    let len := ((b.entry o.slot).len.getD 0).toNat
    (len = 0 ∨ 2047 < len → exec (.placementReadComplete d) s = .next
      (settleWork (((b.skippedWith o.slot 11).faulted .notice .invalidDescriptor none (some o.slot)).opEnded o none))) ∧
    (1 ≤ len → len ≤ 2047 → (s.entry o.slot).final = none →
      ∃ t, exec (.placementReadComplete d) s = .next t ∧ (t.entry o.slot).final ≠ some 11)

/-- The decision steps of an operation whose read completes with a valid length: class order, policy action, credit, and the
ring, in that order; a RELEASE goes straight to the credit test. -/
def Obligations.PlacementReadDecides : Prop :=
  ∀ (s : State) (a : Access) (o : Operation) (d : Descriptor), s.carries .placementRead a → s.ple.op = some o →
    o.slot < s.tsm.entries.length →
    let b := ({ s with fsp.port := .free } : State).readInto o.slot d
    let cls := (b.entry o.slot).cls.getD 0
    let len := ((b.entry o.slot).len.getD 0).toNat
    let ring := s.ring o.target
    let decided := o.kind = .release ∨ (¬ b.hasOlder o.slot cls ∧ b.actionOn o.target cls = .pass)
    let deferred := ∃ u, b.deferredTo u o.slot ∧
      exec (.placementReadComplete d) s = .next (settleWork (u.opEnded o (some cls)))
    let requeued := ∃ u, b.requeuedTo u o.slot ∧
      exec (.placementReadComplete d) s = .next (settleWork (u.opEnded o none))
    (o.kind ≠ .release → 1 ≤ len ∧ len ≤ 2047) →
    (o.kind ≠ .release → b.hasOlder o.slot cls → cls ≠ 1 → deferred) ∧
    (o.kind ≠ .release → b.hasOlder o.slot cls → cls = 1 → requeued) ∧
    (o.kind ≠ .release → ¬ b.hasOlder o.slot cls → b.actionOn o.target cls = .defer → deferred) ∧
    (o.kind ≠ .release → ¬ b.hasOlder o.slot cls → b.actionOn o.target cls = .skip →
      exec (.placementReadComplete d) s = .next (settleWork ((b.skippedWith o.slot 8).opEnded o none))) ∧
    (decided → s.umt.pool < b.costOf o.target o.slot → deferred) ∧
    (decided → b.costOf o.target o.slot ≤ s.umt.pool →
      ((ring.producer - ring.consumer).toNat < s.txSize o.target →
        exec (.placementReadComplete d) s = .next (settleWork (b.copyBegun o))) ∧
      (s.txSize o.target ≤ (ring.producer - ring.consumer).toNat → s.ple.claim = .pending → requeued) ∧
      (s.txSize o.target ≤ (ring.producer - ring.consumer).toNat → s.ple.claim ≠ .pending →
        exec (.placementReadComplete d) s = .next (settleWork { b with ple.op := some { o with phase := .waiting } })))

/-- Publication: the producer record advances by one, the path slot is published and mapped, the entry is PLACED, the
producer word write is requested, the activity flag of class 1 or 2 is retriggered while a service path is set, and the
operation ends. -/
def Obligations.PublicationMapsSlot : Prop :=
  ∀ (s : State) (a : Access) (o : Operation) (ps : Nat), s.carries .copy a → s.ple.op = some o →
    (s.entry o.slot).pslot = some ps →
    let e := s.entry o.slot
    let r := s.ring o.target
    let w := match o.target with | .fibre => 4 | .radio => 8
    ∃ list, headerRequested (s.headerWrite w (r.producer + 1) (some o.target)) s.fsp.list list ∧
      exec .publication s = .next (settleWork (State.opEnded
        { s with
          tsm.entries := s.tsm.entries.set o.slot { e with state := .placed }
          ple.rings := s.ple.rings.set o.target
            { r with producer := r.producer + 1, slots := r.slots.set ps ⟨true, some o.slot, false⟩ }
          swc.emergency := if s.swc.service ≠ none ∧ e.cls = some 1 then ⟨true, some 0⟩ else s.swc.emergency
          swc.voice := if s.swc.service ≠ none ∧ e.cls = some 2 then ⟨true, some 0⟩ else s.swc.voice
          fsp.port := .free
          fsp.list := list } o none))

/-- A completed withdrawal write marks the path slot withdrawn and unmapped; under a HELD claim with a path as target the
entry is re-decided there; with target NONE, or after a restart, it returns to POSTED and the step ends. -/
def Obligations.WithdrawalIsRedecided : Prop :=
  ∀ (s : State) (a : Access) (i ps : Nat) (p : Path), s.carries .withdrawal a → a.slot = some i →
    i < s.tsm.entries.length → (s.entry i).path = some p → (s.entry i).pslot = some ps →
    let r := s.ring p
    let u : State :=
      { s with
        fsp.port := .free
        ple.rings := s.ple.rings.set p
          { r with slots := r.slots.set ps ⟨(r.slotAt ps).published, none, true⟩ } }
    (∀ t, s.ple.claim = .held → s.swc.target = some (some t) →
      exec .withdrawalWriteComplete s = .next (settleWork (u.begunOn i .reDecision t))) ∧
    ((s.ple.claim ≠ .held ∨ s.swc.target = some none ∨ s.swc.target = none) →
      ∃ v, State.requeuedTo { u with swc.step := none } v i ∧
        exec .withdrawalWriteComplete s = .next (settleWork v))

/-- A mirror or final write that completes ends its entry's final write pending; a header write changes no table; in HALTED,
or after RECONFIGURE, a completion only frees the port (log 15); a completion with no such far cycle in flight is no event
(log 3). -/
def Obligations.CompletionsFreePort : Prop :=
  ∀ (s : State) (c : Instr) (k : AccessKind), completes c = some k →
    (∀ a, s.carries k a → k = .mirror ∨ k = .final → ∀ i, a.slot = some i → exec c s = .next
      { s with
        fsp.port := .free
        tsm.entries := s.tsm.entries.set i { s.entry i with finalPending := some false } }) ∧
    (∀ a, s.carries k a → k = .header → exec c s = .next { s with fsp.port := .free }) ∧
    (∀ a, s.fsp.port = .part a → a.kind = k → (a.void = true ∨ s.pcf.part = .halted) →
      exec c s = .next { s with fsp.port := .free }) ∧
    ((∀ a, s.fsp.port = .part a → a.kind ≠ k) → exec c s = .next s)

/-- The START sequence: each read's value is taken by its owner and the next access is requested; the five writes carry the
records, with the path of their word for a fault record, the reads with none (log 13); after the write of word 11 the part is
ACTIVE, with the pool at its ceiling, the silence counts 0, and the service path by the health of the paths, NO_PATH raised
when none is UP. -/
def Obligations.StartSequenceRuns : Prop :=
  (∀ (s : State) (a : Access) (v : Word), s.carries .startRead a →
    let free : State := { s with fsp.port := .free }
    let read (u : State) (w : Nat) : State :=
      { u with fsp.list := u.fsp.list ++
        [⟨.startRead, BitVec.ofNat 24 (s.geo.header.value.toNat * 256 + w), [], none, none, w, false, false⟩] }
    let result := exec (.startReadComplete v) s
    (a.hdr = 0 → result = .next (read { free with tsm.post := v, tsm.reclaim := v, tsm.seqCtr := 0 } 1)) ∧
    (a.hdr = 1 → v = s.tsm.post → result = .next (read free 3)) ∧
    (a.hdr = 1 → v ≠ s.tsm.post → result = .next (read (free.faulted .notice .reclaimOverrun none none) 3)) ∧
    (a.hdr = 3 → result = .next (read { free with rmu.available := v, rmu.release := v } 5)) ∧
    (a.hdr = 5 → result = .next
      (read { free with ple.rings := ⟨⟨s.ple.rings.fibre.slots, v, v⟩, s.ple.rings.radio⟩ } 6)) ∧
    (a.hdr = 6 → result = .next (read { free with rmu.recs := ⟨⟨v, v, v⟩, s.rmu.recs.radio⟩ } 9)) ∧
    (a.hdr = 9 → result = .next
      (read { free with ple.rings := ⟨s.ple.rings.fibre, ⟨s.ple.rings.radio.slots, v, v⟩⟩ } 10)) ∧
    (a.hdr = 10 → result = .next
      { free with
        rmu.recs := ⟨s.rmu.recs.fibre, ⟨v, v, v⟩⟩
        fsp.list := s.fsp.list ++ [{ s.headerWrite 2 s.rmu.available none with kind := .startWrite }] })) ∧
  (∀ (s : State) (a : Access), s.carries .startWrite a →
    let write (w : Nat) (v : Word) (p : Path) : State :=
      { s with
        fsp.port := .free
        fsp.list := s.fsp.list ++ [{ s.headerWrite w v (some p) with kind := .startWrite }] }
    let result := exec .startWriteComplete s
    (a.hdr = 2 → result = .next (write 4 (s.ring .fibre).producer .fibre)) ∧
    (a.hdr = 4 → result = .next (write 7 (s.rxRecs .fibre).consumer .fibre)) ∧
    (a.hdr = 7 → result = .next (write 8 (s.ring .radio).producer .radio)) ∧
    (a.hdr = 8 → result = .next (write 11 (s.rxRecs .radio).consumer .radio)) ∧
    (a.hdr = 11 → s.pcf.part = .starting → s.swc.service = none → s.swc.state = .steady → s.ple.claim = .none →
      ∃ t, result = .next t ∧
      t.pcf.part = .active ∧ t.umt = { s.umt with pool := s.sdc.settings.metering.ceiling } ∧
      (∀ p, (t.pathRec p).silence = 0) ∧ t.swc.state = .steady ∧ t.swc.force = s.swc.force ∧
      t.swc.mode = s.swc.mode ∧
      t.swc.service =
        (if (s.pathRec .fibre).health = .up then some .fibre
        else if (s.pathRec .radio).health = .up then some .radio else none) ∧
      (t.swc.service = none → t.pcf = { (s.faulted .path .noPath none none).pcf with part := .active }) ∧
      (t.swc.service ≠ none → t.pcf = { s.pcf with part := .active })))

/-! ### Lines and timers -/

/-- The debounce of a side line: the bad level starts the confirm timer (or confirms at once when the confirm time is 0), the
good level discards it with no confirmation (log 9), from BAD the good level is the good confirmation and lets a DOWN path
enter TRIAL (the radio in phase POWERED only), and the timer's expiry is the bad confirmation. A line level that is the present
one, and an expiry with the timer stopped, change nothing (log 3). -/
def Obligations.LineDebounceTable : Prop :=
  ∀ (s : State) (p : Path),
    let moved (b : Bool) : State := { s with lines := s.lines.setLevel p b }
    let r := s.pathRec p
    let cause : DownCause := match p with | .fibre => .light | .radio => .detach
    let confirmTime := s.sdc.settings.timing.confirm.get p
    (∀ b, s.lines.level p = b → exec (.lineChange p b) s = .next s) ∧
    (∀ b, s.lines.level p ≠ b → s.rstn = false → exec (.lineChange p b) s = .next (moved b)) ∧
    (s.rstn = true → s.lines.level p = true →
      (r.line ≠ .good → exec (.lineChange p false) s = .next (settleWork (moved false))) ∧
      (r.line = .good → confirmTime ≠ 0 → exec (.lineChange p false) s =
        .next (settleWork (setRec (moved false) p { r with line := .falling 0 }))) ∧
      (r.line = .good → confirmTime = 0 → exec (.lineChange p false) s =
        .next (settleWork (applyCause (setRec (moved false) p { r with line := .bad }) p cause)))) ∧
    (s.rstn = true → s.lines.level p = false →
      (r.line = .good → exec (.lineChange p true) s = .next (settleWork (moved true))) ∧
      ((∃ n, r.line = .falling n) →
        exec (.lineChange p true) s = .next (settleWork (setRec (moved true) p { r with line := .good }))) ∧
      (r.line = .bad → r.health = .down → (p = .radio → s.pmn.power.phase = .powered) →
        exec (.lineChange p true) s = .next (settleWork (setRec (moved true) p
          { r with
            line := .good, health := .trial, trial := 0, silence := 0
            trials := if r.trials < 65535 then r.trials + 1 else 65535 }))) ∧
      (r.line = .bad → (r.health ≠ .down ∨ (p = .radio ∧ s.pmn.power.phase ≠ .powered)) →
        exec (.lineChange p true) s = .next (settleWork (setRec (moved true) p { r with line := .good })))) ∧
    (s.rstn = true → (∃ n, r.line = .falling n) → exec (.confirmTimerExpiry p) s =
      .next (settleWork (applyCause (setRec s p { r with line := .bad }) p cause))) ∧
    ((∀ n, r.line ≠ .falling n) → exec (.confirmTimerExpiry p) s = .next s)

/-- A cause that arrives while a path is DOWN is not a down event: it replaces grade and cause when its grade is at least
the recorded one, and nothing else of the monitor changes; a terminal index report still raises its fault. -/
def Obligations.CauseWhileDownIsGraded : Prop :=
  ∀ (s : State) (p : Path), (s.pathRec p).health = .down →
    let graded (r : PathRecord) (g : Nat) (cause : DownCause) : PathRecord :=
      if r.grade ≤ g then { r with grade := g, cause := cause } else r
    let line : DownCause := match p with | .fibre => .light | .radio => .detach
    let bad : PathRecord := { s.pathRec p with line := .bad }
    (s.rstn = true → (∃ n, (s.pathRec p).line = .falling n) → exec (.confirmTimerExpiry p) s =
      .next (settleWork (setRec s p (graded bad 3 line)))) ∧
    (∀ v, (s.rxRecs p).producer = (s.rxRecs p).consumer + BitVec.ofNat 16 (s.rxSize p) → v ≠ (s.rxRecs p).producer →
      takeRxProducer s p v =
        setRec (s.faulted .path .terminalIndex (some p) none) p (graded (s.pathRec p) 3 .terminalIndex)) ∧
    (∀ v, (s.ring p).producer = (s.ring p).consumer → v ≠ (s.ring p).producer → takeTxConsumer s p v =
      setRec (s.faulted .path .terminalIndex (some p) none) p (graded (s.pathRec p) 3 .terminalIndex)) ∧
    (∀ cause g, (cause, g) ∈ [(DownCause.stall, 1), (.silence, 2), (.light, 3), (.detach, 3), (.powerCycle, 3),
        (.terminalIndex, 3)] →
      applyCause s p cause = setRec s p (graded (s.pathRec p) g cause))

/-- The end of a heartbeat interval judges FIBRE and then RADIO, each by its state at that moment, clears both activity marks
and begins the next interval with the setting in force. A path that becomes UP is the arrival a service of NONE waits for, and
the fibre's return is tested for failback. -/
def Obligations.HeartbeatJudgesPaths : Prop :=
  (∀ s : State, s.rstn = true → ∃ t, exec .heartbeatIntervalEnd s = .next (settleWork t) ∧
    t.pmn.beat = 0 ∧ t.pmn.beatLen = s.sdc.settings.timing.heartbeat ∧
    (∀ p, t.pathRec p = { (judge (settleWork (judge s .fibre)) .radio).pathRec p with mark := false }) ∧
    t.swc = (judge (settleWork (judge s .fibre)) .radio).swc ∧ t.pcf = (judge (settleWork (judge s .fibre)) .radio).pcf) ∧
  (∀ s : State, s.rstn = false → exec .heartbeatIntervalEnd s = .next s) ∧
  (∀ (s : State) (p : Path),
    let r := s.pathRec p
    let limit := s.sdc.settings.timing.silence.get p
    let inForce := s.pcf.part = .active ∧ limit ≠ 0
    let missed := if r.silence < 255 then r.silence + 1 else 255
    let needed := match p with
      | .radio => s.sdc.settings.timing.radioTrial
      | .fibre =>
        if r.grade = 1 then s.sdc.settings.timing.trial1
        else if r.grade = 2 then s.sdc.settings.timing.trial2 else s.sdc.settings.timing.trial3
    let counted := if r.mark = false ∧ inForce then 0 else if r.trial < 255 then r.trial + 1 else 255
    (r.health = .off ∨ r.health = .failed → judge s p = s) ∧
    (r.health = .up → ¬ inForce → judge s p = s) ∧
    (r.health = .up → inForce → r.mark = true → judge s p = setRec s p { r with silence := 0 }) ∧
    (r.health = .up → inForce → r.mark = false → missed < limit →
      judge s p = setRec s p { r with silence := missed }) ∧
    (r.health = .up → inForce → r.mark = false → limit ≤ missed →
      judge s p = downEvent (setRec s p { r with silence := missed }) p .silence) ∧
    (r.health = .trial → (∃ n, r.line = .falling n) → judge s p = s) ∧
    (r.health = .trial → r.line = .good → counted < needed → judge s p = setRec s p { r with trial := counted }) ∧
    (r.health = .trial → r.line = .good → needed ≤ counted →
      judge s p = becomeUp (setRec s p { r with trial := counted }) p) ∧
    (r.health = .down → r.line ≠ .good → judge s p = s) ∧
    (r.health = .down → r.line = .good → p = .radio → s.pmn.power.phase ≠ .powered → judge s p = s) ∧
    (r.health = .down → r.line = .good → (p = .radio → s.pmn.power.phase = .powered) →
      judge s p = setRec s p
        { r with
          health := .trial, trial := 0, silence := 0
          trials := if r.trials < 65535 then r.trials + 1 else 65535 }) ∧
    (let up := setRec s p { r with health := .up, trial := 0, silence := 0 }
      let ready := match p with
        | .fibre => evalStandby up
        | .radio => { up with pmn.power.attach := none, pmn.power.retry := 0 }
      let arrives := s.pcf.part = .active ∧ s.swc.service = none ∧ s.swc.state = .steady
      (arrives → becomeUp s p = startMigration ready
        (some (if p = .fibre ∨ (s.pathRec .fibre).health = .up then .fibre else .radio)) .arrival) ∧
      (¬ arrives → becomeUp s p = match p with | .fibre => failbackTest ready | .radio => ready)))

/-- A down event (R101): the record of the path, PATH_DOWN with the path, the flap list of the fibre with MANUAL and
FLAP_LIMIT at the limit, the radio's attach timer, and the failover of a serving path to the other path or NONE, with NO_PATH
where it is NONE. Each fault is taken whole and in this order: the first and last fault records, the PATH count, and the alert
PATH, which leaves the seen set; no other fault is taken and no other alert raised. A cause is a down event in TRIAL and UP and
nothing in OFF and FAILED; the stall timer's expiry is a down event with cause STALL, and with the timer stopped it is no event
(log 3). -/
def Obligations.DownEventEffects : Prop :=
  (∀ (s : State) (p : Path) (cause : DownCause) (g : Nat),
    (cause, g) ∈ [(DownCause.stall, 1), (.silence, 2), (.light, 3), (.detach, 3), (.powerCycle, 3), (.terminalIndex, 3)] →
    let r := s.pathRec p
    let t := downEvent s p cause
    let kept := (if s.pmn.flaps.length < 15 then s.pmn.flaps else s.pmn.flaps.tail) ++ [s.clock.uptime]
    let serving := s.pcf.part = .active ∧ r.health = .up ∧ s.swc.service = some p
    let limited := p = .fibre ∧ s.sdc.settings.timing.flapLimit ≤ kept.length
    let down := s.faulted .path .pathDown (some p) none
    let flapped := if limited then down.faulted .path .flapLimit (some .fibre) none else down
    let faulted := if serving ∧ t.swc.service = none then flapped.faulted .path .noPath none none else flapped
    (t.pathRec p).health = .down ∧ (t.pathRec p).grade = g ∧ (t.pathRec p).cause = cause ∧ (t.pathRec p).trial = 0 ∧
    (t.pathRec p).silence = 0 ∧ (t.pathRec p).stall = none ∧
    (t.pathRec p).downs = (if r.downs < 65535 then r.downs + 1 else 65535) ∧ (t.pathRec p).line = r.line ∧
    t.pcf = faulted.pcf ∧ t.sdc = faulted.sdc ∧
    (p = .radio → t.pmn.flaps = s.pmn.flaps) ∧ (p = .fibre → t.pmn.flaps = kept) ∧
    t.swc.mode = (if limited then .manual else s.swc.mode) ∧
    (p = .radio → r.health = .up → s.pmn.power.phase = .powered → t.pmn.power.attach = some 0) ∧
    (serving → t.swc.state = .migrating ∧ t.swc.kind = some .failover ∧ t.swc.force = none ∧ t.ple.claim = .pending ∧
      t.swc.target = some t.swc.service ∧
      (((s.pathRec .radio).health = .up → s.pmn.power.phase = .powered) →
        t.swc.service = (if (s.pathRec (otherPath p)).health = .up then some (otherPath p) else none))) ∧
    (¬ serving → t.swc.service = s.swc.service ∧ t.swc.force = s.swc.force ∧
      (s.pcf.part = .active → r.health = .up → p = .fibre → s.swc.state = .waiting → t.swc.state = .steady) ∧
      (¬ (s.pcf.part = .active ∧ r.health = .up ∧ p = .fibre ∧ s.swc.state = .waiting) → t.swc.state = s.swc.state))) ∧
  (∀ (s : State) (p : Path), s.rstn = true → (s.pathRec p).stall ≠ none →
    (s.pathRec p).health = .trial ∨ (s.pathRec p).health = .up →
    exec (.stallTimerExpiry p) s = .next (settleWork (downEvent s p .stall))) ∧
  (∀ (s : State) (p : Path) (cause : DownCause),
    ((s.pathRec p).health = .trial ∨ (s.pathRec p).health = .up → applyCause s p cause = downEvent s p cause) ∧
    ((s.pathRec p).health = .off ∨ (s.pathRec p).health = .failed → applyCause s p cause = s)) ∧
  (∀ (s : State) (p : Path), (s.pathRec p).stall = none → exec (.stallTimerExpiry p) s = .next s)

/-- The radio power sequencer's timers: an attach expiry counts a retry and raises ATTACH_TIMEOUT, then power cycles the
radio, or fails it above the retry limit; the power-off expiry powers it again; the keep expiry lets it go to STANDBY. An
expiry whose timer is stopped is no event (log 3). -/
def Obligations.SequencerTimerExpiries : Prop :=
  ∀ s : State, s.rstn = true →
    let n := if s.pmn.power.retry < 8 then s.pmn.power.retry + 1 else 8
    let timedOut : State :=
      ({ s with pmn.power.attach := none, pmn.power.retry := n } : State).faulted .path .attachTimeout (some .radio) none
    let cycling : State := { timedOut with pmn.power.phase := .cycling }
    let standby := s.sdc.settings.radio.standby = .onDemand ∧ (s.pathRec .fibre).health = .up ∧
      s.swc.service = some .fibre
    let kept : State := { s with pmn.power.keep := none }
    (s.pmn.power.attach ≠ none →
      (s.sdc.settings.radio.retry < n → exec .attachTimerExpiry s = .next (settleWork
        (({ timedOut with
          pmn.power.phase := .failed
          pmn.power.off := none
          pmn.recs.radio := { s.pathRec .radio with health := .failed, trial := 0, silence := 0, stall := none } } :
          State).faulted .path .radioFailed (some .radio) none))) ∧
      (n ≤ s.sdc.settings.radio.retry → (s.pathRec .radio).health ≠ .trial →
        exec .attachTimerExpiry s = .next (settleWork { cycling with pmn.power.off := some 0 })) ∧
      (n ≤ s.sdc.settings.radio.retry → (s.pathRec .radio).health = .trial →
        exec .attachTimerExpiry s = .next (settleWork
          { downEvent cycling .radio .powerCycle with pmn.power.off := some 0 }))) ∧
    (s.pmn.power.off ≠ none → exec .powerOffTimerExpiry s =
      .next { s with pmn.power.phase := .powered, pmn.power.off := none, pmn.power.attach := some 0 }) ∧
    (s.pmn.power.keep ≠ none →
      (standby → s.pmn.power.phase = .powered ∨ s.pmn.power.phase = .cycling → exec .keepTimerExpiry s = .next
        { s with
          pmn.power := ⟨.standby, none, none, none, 0⟩
          pmn.recs.radio := { s.pathRec .radio with health := .off, trial := 0, silence := 0, stall := none } }) ∧
      (¬ standby → s.pmn.power.phase = .standby → exec .keepTimerExpiry s = .next
        { kept with
          pmn.power.phase := .powered
          pmn.power.attach := some 0
          pmn.recs.radio := { s.pathRec .radio with health := .down } }) ∧
      ((¬ standby ∧ s.pmn.power.phase ≠ .standby) ∨ (standby ∧ s.pmn.power.phase = .standby) ∨
          s.pmn.power.phase = .failed → exec .keepTimerExpiry s = .next kept)) ∧
    (s.pmn.power.attach = none → exec .attachTimerExpiry s = .next s) ∧
    (s.pmn.power.off = none → exec .powerOffTimerExpiry s = .next s) ∧
    (s.pmn.power.keep = none → exec .keepTimerExpiry s = .next s)

/-- The ticks. At the 1-minute tick flap entries older than the window leave from the oldest. At the 1-second tick, in ACTIVE
with a limit that is not 0, every deferral record at or past the age limit leaves in post order, its entry SKIPPED with
status 9 and its final write requested; the records kept and every other entry stay. -/
def Obligations.TicksExpireRecords : Prop :=
  ∀ s : State, s.rstn = true →
    exec .flapExpiry s = .next
      { s with
        clock.minDue := false
        pmn.flaps := s.pmn.flaps.dropWhile
          (fun t => decide (s.sdc.settings.timing.flapWindow * 60000 < (s.clock.uptime - t).toNat)) } ∧
    (s.pcf.part ≠ .active ∨ s.sdc.settings.timing.deferralAge = 0 →
      exec .deferralExpiry s = .next { s with clock.secDue := false }) ∧
    (s.pcf.part = .active → s.sdc.settings.timing.deferralAge ≠ 0 → (s.ple.deferralQ.map (·.slot)).Nodup →
      (∀ r ∈ s.ple.deferralQ, r.slot < s.tsm.entries.length) →
      let old (r : DeferralRec) : Bool :=
        decide (s.sdc.settings.timing.deferralAge * 1000 ≤ (s.clock.uptime - r.time).toNat)
      ∃ entries, exec .deferralExpiry s = .next
          { s with
            clock.secDue := false
            tsm.entries := entries
            ple.deferralQ := s.ple.deferralQ.filter (fun r => !old r)
            fsp.list := s.fsp.list ++ (s.ple.deferralQ.filter old).map (fun r =>
              ⟨.final, s.svcTxAddr r.slot 0, [BitVec.ofNat 16 (((s.entry r.slot).cls.getD 0).toNat * 2048 + 9 * 128)],
                some r.slot, none, 0, false, false⟩) } ∧
        entries.length = s.tsm.entries.length ∧
        (∀ r ∈ s.ple.deferralQ, old r = true → entries.getD r.slot freeEntry =
          { s.entry r.slot with
            state := .skipped, path := none, pslot := none, final := some 9, finalPending := some true }) ∧
        (∀ i, (∀ r ∈ s.ple.deferralQ, old r = true → r.slot ≠ i) → entries.getD i freeEntry = s.entry i))

/-- A quiet timer's expiry clears its flag, the failback wait timer's expiry sets its mark, and each tests the wait: it
proceeds to a failback migration exactly when emergency is clear and voice is clear or the mark is set, so no guarded switch
begins while emergency activity is set. An expiry whose timer is stopped is no event (log 3). -/
def Obligations.QuietAndWaitExpiries : Prop :=
  ∀ s : State, s.rstn = true →
    let waited (u : State) : State :=
      if u.swc.state = .waiting ∧ u.swc.emergency.flag = false ∧ (u.swc.voice.flag = false ∨ u.swc.expired = true) then
        startMigration { u with swc.wait := none, swc.expired := false } (some .fibre) .failback
      else u
    (s.swc.voice.timer ≠ none → exec (.quietTimerExpiry .voice) s =
      .next (settleWork (waited { s with swc.voice := ⟨false, none⟩ }))) ∧
    (s.swc.emergency.timer ≠ none → exec (.quietTimerExpiry .emergency) s =
      .next (settleWork (waited { s with swc.emergency := ⟨false, none⟩ }))) ∧
    (s.swc.wait ≠ none → s.sdc.settings.timing.failbackWait ≠ 0 → exec .failbackWaitExpiry s =
      .next (settleWork (waited { s with swc.wait := none, swc.expired := true }))) ∧
    (s.swc.voice.timer = none → exec (.quietTimerExpiry .voice) s = .next s) ∧
    (s.swc.emergency.timer = none → exec (.quietTimerExpiry .emergency) s = .next s) ∧
    (s.swc.wait = none ∨ s.sdc.settings.timing.failbackWait = 0 → exec .failbackWaitExpiry s = .next s)

/-- The mains line is debounced as the side lines are, and each confirmation computes the regime; a refill raises the pool by
the amount up to the ceiling, restarts its timer, and prompts a re-examination when the radio serves. A MAINS level that is
the present one, and an expiry with the timer stopped, are no event (log 3). -/
def Obligations.MainsAndRefill : Prop :=
  ∀ s : State,
    let moved (b : Bool) : State := { s with lines.mains := b }
    let absent (u : State) : State := ({ u with umt.mains := .absent } : State).regimed
    let refilled : State :=
      { s with
        umt.pool :=
          if s.umt.pool + s.sdc.settings.metering.amount < s.sdc.settings.metering.ceiling then
            s.umt.pool + s.sdc.settings.metering.amount
          else s.sdc.settings.metering.ceiling
        umt.refill := 0 }
    (s.lines.mains = true → exec (.mainsChange true) s = .next s) ∧
    (s.lines.mains = false → exec (.mainsChange false) s = .next s) ∧
    (s.rstn = true → s.lines.mains = true →
      (s.umt.mains = .present → s.sdc.settings.radio.mainsConfirm ≠ 0 → exec (.mainsChange false) s =
        .next (settleWork { moved false with umt.mains := .falling 0 })) ∧
      (s.umt.mains = .present → s.sdc.settings.radio.mainsConfirm = 0 → exec (.mainsChange false) s =
        .next (settleWork (absent (moved false))))) ∧
    (s.rstn = true → s.lines.mains = false →
      (∀ n, s.umt.mains = .falling n → exec (.mainsChange true) s =
        .next (settleWork { moved true with umt.mains := .present })) ∧
      (s.umt.mains = .absent → exec (.mainsChange true) s =
        .next (settleWork ({ moved true with umt.mains := .present } : State).regimed))) ∧
    (s.rstn = true → ∀ n, s.umt.mains = .falling n → exec .mainsConfirmExpiry s = .next (settleWork (absent s))) ∧
    ((∀ n, s.umt.mains ≠ .falling n) → exec .mainsConfirmExpiry s = .next s) ∧
    (s.rstn = true → exec .creditRefill s =
      .next (settleWork (if s.swc.service = some .radio then refilled.prompted else refilled)))

/-! ### The work that takes no time (log 18) -/

/-- The engine starts work only in ACTIVE with a service path, no claim and no operation. Without a scan it chooses by the
first line of R48's table; in a scan it judges the oldest record newer than its position by R65, or ends the scan. -/
def Obligations.EngineChoosesWork : Prop :=
  ∀ s : State, s.ple.claim = .none →
    (s.pcf.part ≠ .active ∨ s.swc.service = none ∨ s.ple.op ≠ none → workStep s = none) ∧
    (∀ p, s.pcf.part = .active → s.swc.service = some p → s.ple.op = none → s.ple.scan = none →
      let without (i : Nat) : State := { s with ple.deferralQ := s.ple.deferralQ.filter (fun r => decide (r.slot ≠ i)) }
      (s.ple.rexPending = true →
        workStep s = some { s with ple.rexPending := false, ple.scan := some ⟨[], none⟩ }) ∧
      (s.ple.rexPending = false →
        (∀ r rest, p = .fibre → s.ple.deferralQ = r :: rest →
          (∀ j, s.ple.placementQ.head? = some j → s.orderOf r.seq < s.slotOrder j) →
          workStep s = some ((without r.slot).begunOn r.slot .placement .fibre)) ∧
        (∀ i rest, s.ple.placementQ = i :: rest →
          (p = .fibre → ∀ r, s.ple.deferralQ.head? = some r → s.slotOrder i ≤ s.orderOf r.seq) →
          workStep s = some (({ s with ple.placementQ := rest } : State).begunOn i .placement p)) ∧
        (s.ple.placementQ = [] → (p = .fibre → s.ple.deferralQ = []) → workStep s = none))) ∧
    (∀ p c, s.pcf.part = .active → s.swc.service = some p → s.ple.op = none → s.ple.scan = some c →
      let newer (r : DeferralRec) : Prop := ∀ q, c.pos = some q → s.orderOf q < s.orderOf r.seq
      ((∀ r ∈ s.ple.deferralQ, ¬ newer r) → workStep s = some
        { s with ple.scan := none, ple.rexPending := s.ple.rexPending || s.ple.rescan, ple.rescan := false }) ∧
      (∀ front r back, s.ple.deferralQ = front ++ r :: back → (∀ q ∈ front, ¬ newer q) → newer r →
        let blocked := r.cls ∈ c.blocked ∨ ∃ j ∈ s.ple.placementQ,
          ((s.entry j).cls = none ∨ (s.entry j).cls = some r.cls) ∧ s.slotOrder j < s.orderOf r.seq
        let stays : State :=
          { s with ple.scan := some ⟨if r.cls ∈ c.blocked then c.blocked else r.cls :: c.blocked, some r.seq⟩ }
        let leaves : State :=
          { s with
            ple.scan := some ⟨c.blocked, some r.seq⟩
            ple.deferralQ := s.ple.deferralQ.filter (fun q => decide (q.slot ≠ r.slot)) }
        let cost := match p with
          | .fibre => 0
          | .radio =>
            if (s.policyOf r.cls).metered = true then
              ((s.entry r.slot).len.getD 0).toNat / 2 ^ (s.sdc.settings.metering.unit + 1)
            else 0
        (blocked → workStep s = some stays) ∧
        (¬ blocked → s.actionOn p r.cls = .skip → workStep s = some (leaves.skippedWith r.slot 8)) ∧
        (¬ blocked → s.actionOn p r.cls = .defer → workStep s = some stays) ∧
        (¬ blocked → s.actionOn p r.cls = .pass → s.umt.pool < cost → workStep s = some stays) ∧
        (¬ blocked → s.actionOn p r.cls = .pass → cost ≤ s.umt.pool →
          workStep s = some (leaves.begunOn r.slot .release p))))

/-- A migration: when the claim is HELD the list holds exactly the entries R128 names, in ring order from the reclaim record;
its head is withdrawn when PLACED and passed over else; with the list empty the migration ends, the switch state STEADY, the
claim released, the engine at work again, toward RADIO a re-examination prompted whose scan follows at once on an idle
engine, then SWITCHED raised and its kind counted (log 10 for the order at the claim's release); last, with no service a path
that is UP begins an arrival, the fibre first, and with RADIO serving the automatic failback test is made. -/
def Obligations.MigrationWalk : Prop :=
  ∀ s : State, s.pcf.part = .active → s.swc.state = .migrating → s.ple.op = none → s.swc.step = none →
    let n := s.tsm.entries.length
    let target := s.swc.target.getD none
    let stranded (i : Nat) : Prop := (s.entry i).state = .placed ∧ (s.entry i).path ≠ target
    let listed (i : Nat) : Prop := stranded i ∨
      (target ≠ none ∧ (s.entry i).state = .placed ∧ (s.entry i).path = target ∧
        ∃ j, stranded j ∧ (s.entry j).cls = (s.entry i).cls ∧ s.slotOrder j < s.slotOrder i)
    let ringPlace (i : Nat) : Nat := (i + n - s.tsm.reclaim.toNat % n) % n
    (s.ple.claim = .pending → s.ple.scan = none → ∃ list, workStep s = some
        { s with ple.claim := .held, swc.list := list } ∧
      (∀ i, i ∈ list.map (·.slot) ↔ listed i) ∧ (∀ m ∈ list, m.seq = (s.entry m.slot).seq.getD 0) ∧
      list.Pairwise (fun a b => ringPlace a.slot < ringPlace b.slot)) ∧
    (∀ m rest, s.ple.claim = .held → s.swc.list = m :: rest →
      (∀ p ps, (s.entry m.slot).state = .placed → (s.entry m.slot).path = some p → (s.entry m.slot).pslot = some ps →
        workStep s = some
          { s with
            tsm.entries := s.tsm.entries.set m.slot { s.entry m.slot with state := .withdrawing }
            swc.list := rest
            swc.step := some m.slot
            fsp.list := s.fsp.list ++
              [⟨.withdrawal, s.txAddr p ps 0,
                [BitVec.ofNat 16 (0xC000 + ((s.entry m.slot).cls.getD 0).toNat * 2048)], some m.slot, some p, 0, false,
                false⟩] }) ∧
      ((s.entry m.slot).state ≠ .placed → workStep s = some { s with swc.list := rest })) ∧
    (s.ple.claim = .held → s.swc.list = [] →
      let released : State :=
        { s with
          swc.state := .steady, swc.target := none, swc.kind := none, swc.step := none, ple.claim := .none }
      let chosen := runWork s.workFuel released
      let scanned := if target = some .radio then runWork s.workFuel chosen.prompted else chosen
      let ended : State :=
        { scanned.alerted 0x10 with
          swc.failovers :=
            if s.swc.kind = some .failover then (if s.swc.failovers < 65535 then s.swc.failovers + 1 else 65535)
            else s.swc.failovers
          swc.failbacks :=
            if s.swc.kind = some .failback then (if s.swc.failbacks < 65535 then s.swc.failbacks + 1 else 65535)
            else s.swc.failbacks }
      chosen.atRest ∧ scanned.atRest ∧ scanned.ple.claim = .none ∧ scanned.swc = released.swc ∧ scanned.pcf = s.pcf ∧
      scanned.sdc = s.sdc ∧ scanned.pmn = s.pmn ∧
      (target = some .radio → chosen.ple.op = none → s.swc.service = some .radio → scanned.ple.rexPending = false) ∧
      workStep s = some
        (if s.swc.service = none then
          (if (s.pathRec .fibre).health = .up then startMigration ended (some .fibre) .arrival
          else if (s.pathRec .radio).health = .up then startMigration ended (some .radio) .arrival
          else ended)
        else if s.swc.service = some .radio then failbackTest ended
        else ended))

/-- The work that takes no time keeps the whole state but the contents of the entries, the queues and the engine, the
service path and its migration, the radio's power with its health and counts, the short-write list and the copy request, the
alerts SWITCHED and FAILBACK_HELD, and the timers it brings in line: a stall timer runs, from 0 where it starts, exactly under
the four conditions of R99, and the near streak is 0 while no part work waits. The number of entries, the copy buffer, the
path rings, the failback mode, the force and the activity flags are kept. -/
def Obligations.ZeroTimeWorkKeeps : Prop :=
  ∀ s : State, s.WorkKeeps (settleWork s)

/-! ### What every step keeps -/

/-- The machine right after reset satisfies every invariant below. -/
def Obligations.ResetIsSound : Prop :=
  State.reset.Bounded ∧ State.reset.ServiceSound ∧ State.reset.EmergencySound ∧ State.reset.Resting

/-- The counts, lists, pool and timers of State.Bounded stay within their bounds through every step: the credit pool, the
deferral queue, the arrival list, the flap list and the migration list, the retry, trial and silence counts, the counts of down
events, trials, failovers, failbacks and faults, the near streak, the far hold timer and the REFCLK cycles of a millisecond. -/
def Obligations.BoundsKept : Prop :=
  ∀ s t : State, s.Bounded → step s = .next t → t.Bounded

/-- The service path stays NONE or a path that is UP through every step, with the wait and the radio's power sound. -/
def Obligations.ServicePathStaysUp : Prop :=
  ∀ s t : State, s.ServiceSound → step s = .next t → t.ServiceSound

/-- No step puts an EMERGENCY VOICE descriptor into the deferral queue or makes class 1 metered. -/
def Obligations.EmergencyNeverDeferred : Prop :=
  ∀ s t : State, s.EmergencySound → step s = .next t → t.EmergencySound

/-- Every step ends with no zero-time work left: the work inside a command always comes to its end (log 18). -/
def Obligations.EveryStepComesToRest : Prop :=
  ∀ s t : State, s.Resting → step s = .next t → t.Resting

/-- In HALTED the transmit slot map, the receive merge unit, the placement engine's queues, the path ring tables, the
short-write list and the copy request stand still through every command but RECONFIGURE and the reset line. -/
def Obligations.HaltedMapsAreFrozen : Prop :=
  ∀ (c : Instr) (s t : State), s.ServiceSound → s.pcf.part = .halted → c.wf = true → movesReset c = false →
    isReconfigure c = false → exec c s = .next t →
    t.pcf.part = .halted ∧ t.tsm = s.tsm ∧ t.rmu = s.rmu ∧ t.ple = s.ple ∧ t.fsp.list = s.fsp.list ∧
    t.fsp.copyReq = s.fsp.copyReq ∧ t.umt.tx.toNat ≤ s.umt.tx.toNat ∧ t.umt.rx.toNat ≤ s.umt.rx.toNat ∧
    t.sdc.settings.bus = s.sdc.settings.bus ∧ t.sdc.settings.geometry = s.sdc.settings.geometry

/-- A byte meter never falls but by PERIOD_RESTART, a preset, or the reset line: it stops at its top and never wraps. -/
def Obligations.MetersNeverFall : Prop :=
  ∀ (c : Instr) (s t : State), c.wf = true → lowersMeters c = false → exec c s = .next t →
    s.umt.tx.toNat ≤ t.umt.tx.toNat ∧ s.umt.rx.toNat ≤ t.umt.rx.toNat
end

