-- ==== Sys2Proof/Laws/State.lean ====
section
/-! SUPPORT. What each update of State leaves alone, one lemma for each field, and what it sets, true by definition. -/

namespace Sys2Proof.Machine

/-! ### setEntry -/

@[simp] theorem setEntry_pending (s : State) (i : Nat) (e : TxEntry) : (setEntry s i e).pending = s.pending := rfl
@[simp] theorem setEntry_rstn (s : State) (i : Nat) (e : TxEntry) : (setEntry s i e).rstn = s.rstn := rfl
@[simp] theorem setEntry_settle (s : State) (i : Nat) (e : TxEntry) : (setEntry s i e).settle = s.settle := rfl
@[simp] theorem setEntry_lines (s : State) (i : Nat) (e : TxEntry) : (setEntry s i e).lines = s.lines := rfl
@[simp] theorem setEntry_clock (s : State) (i : Nat) (e : TxEntry) : (setEntry s i e).clock = s.clock := rfl
@[simp] theorem setEntry_nsi (s : State) (i : Nat) (e : TxEntry) : (setEntry s i e).nsi = s.nsi := rfl
@[simp] theorem setEntry_ple (s : State) (i : Nat) (e : TxEntry) : (setEntry s i e).ple = s.ple := rfl
@[simp] theorem setEntry_rmu (s : State) (i : Nat) (e : TxEntry) : (setEntry s i e).rmu = s.rmu := rfl
@[simp] theorem setEntry_pmn (s : State) (i : Nat) (e : TxEntry) : (setEntry s i e).pmn = s.pmn := rfl
@[simp] theorem setEntry_swc (s : State) (i : Nat) (e : TxEntry) : (setEntry s i e).swc = s.swc := rfl
@[simp] theorem setEntry_umt (s : State) (i : Nat) (e : TxEntry) : (setEntry s i e).umt = s.umt := rfl
@[simp] theorem setEntry_fsp (s : State) (i : Nat) (e : TxEntry) : (setEntry s i e).fsp = s.fsp := rfl
@[simp] theorem setEntry_sdc (s : State) (i : Nat) (e : TxEntry) : (setEntry s i e).sdc = s.sdc := rfl
@[simp] theorem setEntry_pcf (s : State) (i : Nat) (e : TxEntry) : (setEntry s i e).pcf = s.pcf := rfl

/-! ### setRing -/

@[simp] theorem setRing_pending (s : State) (p : Path) (r : TxRing) : (setRing s p r).pending = s.pending := rfl
@[simp] theorem setRing_rstn (s : State) (p : Path) (r : TxRing) : (setRing s p r).rstn = s.rstn := rfl
@[simp] theorem setRing_settle (s : State) (p : Path) (r : TxRing) : (setRing s p r).settle = s.settle := rfl
@[simp] theorem setRing_lines (s : State) (p : Path) (r : TxRing) : (setRing s p r).lines = s.lines := rfl
@[simp] theorem setRing_clock (s : State) (p : Path) (r : TxRing) : (setRing s p r).clock = s.clock := rfl
@[simp] theorem setRing_nsi (s : State) (p : Path) (r : TxRing) : (setRing s p r).nsi = s.nsi := rfl
@[simp] theorem setRing_tsm (s : State) (p : Path) (r : TxRing) : (setRing s p r).tsm = s.tsm := rfl
@[simp] theorem setRing_rmu (s : State) (p : Path) (r : TxRing) : (setRing s p r).rmu = s.rmu := rfl
@[simp] theorem setRing_pmn (s : State) (p : Path) (r : TxRing) : (setRing s p r).pmn = s.pmn := rfl
@[simp] theorem setRing_swc (s : State) (p : Path) (r : TxRing) : (setRing s p r).swc = s.swc := rfl
@[simp] theorem setRing_umt (s : State) (p : Path) (r : TxRing) : (setRing s p r).umt = s.umt := rfl
@[simp] theorem setRing_fsp (s : State) (p : Path) (r : TxRing) : (setRing s p r).fsp = s.fsp := rfl
@[simp] theorem setRing_sdc (s : State) (p : Path) (r : TxRing) : (setRing s p r).sdc = s.sdc := rfl
@[simp] theorem setRing_pcf (s : State) (p : Path) (r : TxRing) : (setRing s p r).pcf = s.pcf := rfl

/-! ### setSlotRec -/

@[simp] theorem setSlotRec_pending (s : State) (p : Path) (i : Nat) (r : SlotRec) : (setSlotRec s p i r).pending = s.pending := rfl
@[simp] theorem setSlotRec_rstn (s : State) (p : Path) (i : Nat) (r : SlotRec) : (setSlotRec s p i r).rstn = s.rstn := rfl
@[simp] theorem setSlotRec_settle (s : State) (p : Path) (i : Nat) (r : SlotRec) : (setSlotRec s p i r).settle = s.settle := rfl
@[simp] theorem setSlotRec_lines (s : State) (p : Path) (i : Nat) (r : SlotRec) : (setSlotRec s p i r).lines = s.lines := rfl
@[simp] theorem setSlotRec_clock (s : State) (p : Path) (i : Nat) (r : SlotRec) : (setSlotRec s p i r).clock = s.clock := rfl
@[simp] theorem setSlotRec_nsi (s : State) (p : Path) (i : Nat) (r : SlotRec) : (setSlotRec s p i r).nsi = s.nsi := rfl
@[simp] theorem setSlotRec_tsm (s : State) (p : Path) (i : Nat) (r : SlotRec) : (setSlotRec s p i r).tsm = s.tsm := rfl
@[simp] theorem setSlotRec_rmu (s : State) (p : Path) (i : Nat) (r : SlotRec) : (setSlotRec s p i r).rmu = s.rmu := rfl
@[simp] theorem setSlotRec_pmn (s : State) (p : Path) (i : Nat) (r : SlotRec) : (setSlotRec s p i r).pmn = s.pmn := rfl
@[simp] theorem setSlotRec_swc (s : State) (p : Path) (i : Nat) (r : SlotRec) : (setSlotRec s p i r).swc = s.swc := rfl
@[simp] theorem setSlotRec_umt (s : State) (p : Path) (i : Nat) (r : SlotRec) : (setSlotRec s p i r).umt = s.umt := rfl
@[simp] theorem setSlotRec_fsp (s : State) (p : Path) (i : Nat) (r : SlotRec) : (setSlotRec s p i r).fsp = s.fsp := rfl
@[simp] theorem setSlotRec_sdc (s : State) (p : Path) (i : Nat) (r : SlotRec) : (setSlotRec s p i r).sdc = s.sdc := rfl
@[simp] theorem setSlotRec_pcf (s : State) (p : Path) (i : Nat) (r : SlotRec) : (setSlotRec s p i r).pcf = s.pcf := rfl

/-! ### setRec -/

@[simp] theorem setRec_pending (s : State) (p : Path) (r : PathRecord) : (setRec s p r).pending = s.pending := rfl
@[simp] theorem setRec_rstn (s : State) (p : Path) (r : PathRecord) : (setRec s p r).rstn = s.rstn := rfl
@[simp] theorem setRec_settle (s : State) (p : Path) (r : PathRecord) : (setRec s p r).settle = s.settle := rfl
@[simp] theorem setRec_lines (s : State) (p : Path) (r : PathRecord) : (setRec s p r).lines = s.lines := rfl
@[simp] theorem setRec_clock (s : State) (p : Path) (r : PathRecord) : (setRec s p r).clock = s.clock := rfl
@[simp] theorem setRec_nsi (s : State) (p : Path) (r : PathRecord) : (setRec s p r).nsi = s.nsi := rfl
@[simp] theorem setRec_tsm (s : State) (p : Path) (r : PathRecord) : (setRec s p r).tsm = s.tsm := rfl
@[simp] theorem setRec_ple (s : State) (p : Path) (r : PathRecord) : (setRec s p r).ple = s.ple := rfl
@[simp] theorem setRec_rmu (s : State) (p : Path) (r : PathRecord) : (setRec s p r).rmu = s.rmu := rfl
@[simp] theorem setRec_swc (s : State) (p : Path) (r : PathRecord) : (setRec s p r).swc = s.swc := rfl
@[simp] theorem setRec_umt (s : State) (p : Path) (r : PathRecord) : (setRec s p r).umt = s.umt := rfl
@[simp] theorem setRec_fsp (s : State) (p : Path) (r : PathRecord) : (setRec s p r).fsp = s.fsp := rfl
@[simp] theorem setRec_sdc (s : State) (p : Path) (r : PathRecord) : (setRec s p r).sdc = s.sdc := rfl
@[simp] theorem setRec_pcf (s : State) (p : Path) (r : PathRecord) : (setRec s p r).pcf = s.pcf := rfl

/-! ### setRxRecs -/

@[simp] theorem setRxRecs_pending (s : State) (p : Path) (r : RxRecs) : (setRxRecs s p r).pending = s.pending := rfl
@[simp] theorem setRxRecs_rstn (s : State) (p : Path) (r : RxRecs) : (setRxRecs s p r).rstn = s.rstn := rfl
@[simp] theorem setRxRecs_settle (s : State) (p : Path) (r : RxRecs) : (setRxRecs s p r).settle = s.settle := rfl
@[simp] theorem setRxRecs_lines (s : State) (p : Path) (r : RxRecs) : (setRxRecs s p r).lines = s.lines := rfl
@[simp] theorem setRxRecs_clock (s : State) (p : Path) (r : RxRecs) : (setRxRecs s p r).clock = s.clock := rfl
@[simp] theorem setRxRecs_nsi (s : State) (p : Path) (r : RxRecs) : (setRxRecs s p r).nsi = s.nsi := rfl
@[simp] theorem setRxRecs_tsm (s : State) (p : Path) (r : RxRecs) : (setRxRecs s p r).tsm = s.tsm := rfl
@[simp] theorem setRxRecs_ple (s : State) (p : Path) (r : RxRecs) : (setRxRecs s p r).ple = s.ple := rfl
@[simp] theorem setRxRecs_pmn (s : State) (p : Path) (r : RxRecs) : (setRxRecs s p r).pmn = s.pmn := rfl
@[simp] theorem setRxRecs_swc (s : State) (p : Path) (r : RxRecs) : (setRxRecs s p r).swc = s.swc := rfl
@[simp] theorem setRxRecs_umt (s : State) (p : Path) (r : RxRecs) : (setRxRecs s p r).umt = s.umt := rfl
@[simp] theorem setRxRecs_fsp (s : State) (p : Path) (r : RxRecs) : (setRxRecs s p r).fsp = s.fsp := rfl
@[simp] theorem setRxRecs_sdc (s : State) (p : Path) (r : RxRecs) : (setRxRecs s p r).sdc = s.sdc := rfl
@[simp] theorem setRxRecs_pcf (s : State) (p : Path) (r : RxRecs) : (setRxRecs s p r).pcf = s.pcf := rfl

/-! ### raiseAlert -/

@[simp] theorem raiseAlert_pending (s : State) (a : Alert) : (raiseAlert s a).pending = s.pending := rfl
@[simp] theorem raiseAlert_rstn (s : State) (a : Alert) : (raiseAlert s a).rstn = s.rstn := rfl
@[simp] theorem raiseAlert_settle (s : State) (a : Alert) : (raiseAlert s a).settle = s.settle := rfl
@[simp] theorem raiseAlert_lines (s : State) (a : Alert) : (raiseAlert s a).lines = s.lines := rfl
@[simp] theorem raiseAlert_clock (s : State) (a : Alert) : (raiseAlert s a).clock = s.clock := rfl
@[simp] theorem raiseAlert_nsi (s : State) (a : Alert) : (raiseAlert s a).nsi = s.nsi := rfl
@[simp] theorem raiseAlert_tsm (s : State) (a : Alert) : (raiseAlert s a).tsm = s.tsm := rfl
@[simp] theorem raiseAlert_ple (s : State) (a : Alert) : (raiseAlert s a).ple = s.ple := rfl
@[simp] theorem raiseAlert_rmu (s : State) (a : Alert) : (raiseAlert s a).rmu = s.rmu := rfl
@[simp] theorem raiseAlert_pmn (s : State) (a : Alert) : (raiseAlert s a).pmn = s.pmn := rfl
@[simp] theorem raiseAlert_swc (s : State) (a : Alert) : (raiseAlert s a).swc = s.swc := rfl
@[simp] theorem raiseAlert_umt (s : State) (a : Alert) : (raiseAlert s a).umt = s.umt := rfl
@[simp] theorem raiseAlert_fsp (s : State) (a : Alert) : (raiseAlert s a).fsp = s.fsp := rfl

/-! ### takeFault -/

@[simp] theorem takeFault_pending (s : State) (c : FaultCause) (p : Option Path) (i : Option Nat) : (takeFault s c p i).pending = s.pending := rfl
@[simp] theorem takeFault_rstn (s : State) (c : FaultCause) (p : Option Path) (i : Option Nat) : (takeFault s c p i).rstn = s.rstn := rfl
@[simp] theorem takeFault_settle (s : State) (c : FaultCause) (p : Option Path) (i : Option Nat) : (takeFault s c p i).settle = s.settle := rfl
@[simp] theorem takeFault_lines (s : State) (c : FaultCause) (p : Option Path) (i : Option Nat) : (takeFault s c p i).lines = s.lines := rfl
@[simp] theorem takeFault_clock (s : State) (c : FaultCause) (p : Option Path) (i : Option Nat) : (takeFault s c p i).clock = s.clock := rfl
@[simp] theorem takeFault_nsi (s : State) (c : FaultCause) (p : Option Path) (i : Option Nat) : (takeFault s c p i).nsi = s.nsi := rfl
@[simp] theorem takeFault_tsm (s : State) (c : FaultCause) (p : Option Path) (i : Option Nat) : (takeFault s c p i).tsm = s.tsm := rfl
@[simp] theorem takeFault_ple (s : State) (c : FaultCause) (p : Option Path) (i : Option Nat) : (takeFault s c p i).ple = s.ple := rfl
@[simp] theorem takeFault_rmu (s : State) (c : FaultCause) (p : Option Path) (i : Option Nat) : (takeFault s c p i).rmu = s.rmu := rfl
@[simp] theorem takeFault_pmn (s : State) (c : FaultCause) (p : Option Path) (i : Option Nat) : (takeFault s c p i).pmn = s.pmn := rfl
@[simp] theorem takeFault_swc (s : State) (c : FaultCause) (p : Option Path) (i : Option Nat) : (takeFault s c p i).swc = s.swc := rfl
@[simp] theorem takeFault_umt (s : State) (c : FaultCause) (p : Option Path) (i : Option Nat) : (takeFault s c p i).umt = s.umt := rfl
@[simp] theorem takeFault_fsp (s : State) (c : FaultCause) (p : Option Path) (i : Option Nat) : (takeFault s c p i).fsp = s.fsp := rfl

/-! ### requestShort -/

@[simp] theorem requestShort_pending (s : State) (a : Access) : (requestShort s a).pending = s.pending := rfl
@[simp] theorem requestShort_rstn (s : State) (a : Access) : (requestShort s a).rstn = s.rstn := rfl
@[simp] theorem requestShort_settle (s : State) (a : Access) : (requestShort s a).settle = s.settle := rfl
@[simp] theorem requestShort_lines (s : State) (a : Access) : (requestShort s a).lines = s.lines := rfl
@[simp] theorem requestShort_clock (s : State) (a : Access) : (requestShort s a).clock = s.clock := rfl
@[simp] theorem requestShort_nsi (s : State) (a : Access) : (requestShort s a).nsi = s.nsi := rfl
@[simp] theorem requestShort_tsm (s : State) (a : Access) : (requestShort s a).tsm = s.tsm := rfl
@[simp] theorem requestShort_ple (s : State) (a : Access) : (requestShort s a).ple = s.ple := rfl
@[simp] theorem requestShort_rmu (s : State) (a : Access) : (requestShort s a).rmu = s.rmu := rfl
@[simp] theorem requestShort_pmn (s : State) (a : Access) : (requestShort s a).pmn = s.pmn := rfl
@[simp] theorem requestShort_swc (s : State) (a : Access) : (requestShort s a).swc = s.swc := rfl
@[simp] theorem requestShort_umt (s : State) (a : Access) : (requestShort s a).umt = s.umt := rfl
@[simp] theorem requestShort_sdc (s : State) (a : Access) : (requestShort s a).sdc = s.sdc := rfl
@[simp] theorem requestShort_pcf (s : State) (a : Access) : (requestShort s a).pcf = s.pcf := rfl

/-! ### removeWithdrawal -/

@[simp] theorem removeWithdrawal_pending (s : State) (i : Nat) : (removeWithdrawal s i).pending = s.pending := rfl
@[simp] theorem removeWithdrawal_rstn (s : State) (i : Nat) : (removeWithdrawal s i).rstn = s.rstn := rfl
@[simp] theorem removeWithdrawal_settle (s : State) (i : Nat) : (removeWithdrawal s i).settle = s.settle := rfl
@[simp] theorem removeWithdrawal_lines (s : State) (i : Nat) : (removeWithdrawal s i).lines = s.lines := rfl
@[simp] theorem removeWithdrawal_clock (s : State) (i : Nat) : (removeWithdrawal s i).clock = s.clock := rfl
@[simp] theorem removeWithdrawal_nsi (s : State) (i : Nat) : (removeWithdrawal s i).nsi = s.nsi := rfl
@[simp] theorem removeWithdrawal_tsm (s : State) (i : Nat) : (removeWithdrawal s i).tsm = s.tsm := rfl
@[simp] theorem removeWithdrawal_ple (s : State) (i : Nat) : (removeWithdrawal s i).ple = s.ple := rfl
@[simp] theorem removeWithdrawal_rmu (s : State) (i : Nat) : (removeWithdrawal s i).rmu = s.rmu := rfl
@[simp] theorem removeWithdrawal_pmn (s : State) (i : Nat) : (removeWithdrawal s i).pmn = s.pmn := rfl
@[simp] theorem removeWithdrawal_swc (s : State) (i : Nat) : (removeWithdrawal s i).swc = s.swc := rfl
@[simp] theorem removeWithdrawal_umt (s : State) (i : Nat) : (removeWithdrawal s i).umt = s.umt := rfl
@[simp] theorem removeWithdrawal_sdc (s : State) (i : Nat) : (removeWithdrawal s i).sdc = s.sdc := rfl
@[simp] theorem removeWithdrawal_pcf (s : State) (i : Nat) : (removeWithdrawal s i).pcf = s.pcf := rfl

/-! ### skipEntry -/

@[simp] theorem skipEntry_pending (s : State) (i : Nat) (st : Status) : (skipEntry s i st).pending = s.pending := rfl
@[simp] theorem skipEntry_rstn (s : State) (i : Nat) (st : Status) : (skipEntry s i st).rstn = s.rstn := rfl
@[simp] theorem skipEntry_settle (s : State) (i : Nat) (st : Status) : (skipEntry s i st).settle = s.settle := rfl
@[simp] theorem skipEntry_lines (s : State) (i : Nat) (st : Status) : (skipEntry s i st).lines = s.lines := rfl
@[simp] theorem skipEntry_clock (s : State) (i : Nat) (st : Status) : (skipEntry s i st).clock = s.clock := rfl
@[simp] theorem skipEntry_nsi (s : State) (i : Nat) (st : Status) : (skipEntry s i st).nsi = s.nsi := rfl
@[simp] theorem skipEntry_ple (s : State) (i : Nat) (st : Status) : (skipEntry s i st).ple = s.ple := rfl
@[simp] theorem skipEntry_rmu (s : State) (i : Nat) (st : Status) : (skipEntry s i st).rmu = s.rmu := rfl
@[simp] theorem skipEntry_pmn (s : State) (i : Nat) (st : Status) : (skipEntry s i st).pmn = s.pmn := rfl
@[simp] theorem skipEntry_swc (s : State) (i : Nat) (st : Status) : (skipEntry s i st).swc = s.swc := rfl
@[simp] theorem skipEntry_umt (s : State) (i : Nat) (st : Status) : (skipEntry s i st).umt = s.umt := rfl
@[simp] theorem skipEntry_sdc (s : State) (i : Nat) (st : Status) : (skipEntry s i st).sdc = s.sdc := rfl
@[simp] theorem skipEntry_pcf (s : State) (i : Nat) (st : Status) : (skipEntry s i st).pcf = s.pcf := rfl

/-! ### beginOp -/

@[simp] theorem beginOp_pending (s : State) (i : Nat) (k : OpKind) (p : Path) : (beginOp s i k p).pending = s.pending := rfl
@[simp] theorem beginOp_rstn (s : State) (i : Nat) (k : OpKind) (p : Path) : (beginOp s i k p).rstn = s.rstn := rfl
@[simp] theorem beginOp_settle (s : State) (i : Nat) (k : OpKind) (p : Path) : (beginOp s i k p).settle = s.settle := rfl
@[simp] theorem beginOp_lines (s : State) (i : Nat) (k : OpKind) (p : Path) : (beginOp s i k p).lines = s.lines := rfl
@[simp] theorem beginOp_clock (s : State) (i : Nat) (k : OpKind) (p : Path) : (beginOp s i k p).clock = s.clock := rfl
@[simp] theorem beginOp_nsi (s : State) (i : Nat) (k : OpKind) (p : Path) : (beginOp s i k p).nsi = s.nsi := rfl
@[simp] theorem beginOp_rmu (s : State) (i : Nat) (k : OpKind) (p : Path) : (beginOp s i k p).rmu = s.rmu := rfl
@[simp] theorem beginOp_pmn (s : State) (i : Nat) (k : OpKind) (p : Path) : (beginOp s i k p).pmn = s.pmn := rfl
@[simp] theorem beginOp_swc (s : State) (i : Nat) (k : OpKind) (p : Path) : (beginOp s i k p).swc = s.swc := rfl
@[simp] theorem beginOp_umt (s : State) (i : Nat) (k : OpKind) (p : Path) : (beginOp s i k p).umt = s.umt := rfl
@[simp] theorem beginOp_sdc (s : State) (i : Nat) (k : OpKind) (p : Path) : (beginOp s i k p).sdc = s.sdc := rfl
@[simp] theorem beginOp_pcf (s : State) (i : Nat) (k : OpKind) (p : Path) : (beginOp s i k p).pcf = s.pcf := rfl

/-! ### removeRecord -/

@[simp] theorem removeRecord_pending (s : State) (i : Nat) : (removeRecord s i).pending = s.pending := rfl
@[simp] theorem removeRecord_rstn (s : State) (i : Nat) : (removeRecord s i).rstn = s.rstn := rfl
@[simp] theorem removeRecord_settle (s : State) (i : Nat) : (removeRecord s i).settle = s.settle := rfl
@[simp] theorem removeRecord_lines (s : State) (i : Nat) : (removeRecord s i).lines = s.lines := rfl
@[simp] theorem removeRecord_clock (s : State) (i : Nat) : (removeRecord s i).clock = s.clock := rfl
@[simp] theorem removeRecord_nsi (s : State) (i : Nat) : (removeRecord s i).nsi = s.nsi := rfl
@[simp] theorem removeRecord_tsm (s : State) (i : Nat) : (removeRecord s i).tsm = s.tsm := rfl
@[simp] theorem removeRecord_rmu (s : State) (i : Nat) : (removeRecord s i).rmu = s.rmu := rfl
@[simp] theorem removeRecord_pmn (s : State) (i : Nat) : (removeRecord s i).pmn = s.pmn := rfl
@[simp] theorem removeRecord_swc (s : State) (i : Nat) : (removeRecord s i).swc = s.swc := rfl
@[simp] theorem removeRecord_umt (s : State) (i : Nat) : (removeRecord s i).umt = s.umt := rfl
@[simp] theorem removeRecord_fsp (s : State) (i : Nat) : (removeRecord s i).fsp = s.fsp := rfl
@[simp] theorem removeRecord_sdc (s : State) (i : Nat) : (removeRecord s i).sdc = s.sdc := rfl
@[simp] theorem removeRecord_pcf (s : State) (i : Nat) : (removeRecord s i).pcf = s.pcf := rfl

/-! ### dropScan -/

@[simp] theorem dropScan_pending (s : State) : (dropScan s).pending = s.pending := rfl
@[simp] theorem dropScan_rstn (s : State) : (dropScan s).rstn = s.rstn := rfl
@[simp] theorem dropScan_settle (s : State) : (dropScan s).settle = s.settle := rfl
@[simp] theorem dropScan_lines (s : State) : (dropScan s).lines = s.lines := rfl
@[simp] theorem dropScan_clock (s : State) : (dropScan s).clock = s.clock := rfl
@[simp] theorem dropScan_nsi (s : State) : (dropScan s).nsi = s.nsi := rfl
@[simp] theorem dropScan_tsm (s : State) : (dropScan s).tsm = s.tsm := rfl
@[simp] theorem dropScan_rmu (s : State) : (dropScan s).rmu = s.rmu := rfl
@[simp] theorem dropScan_pmn (s : State) : (dropScan s).pmn = s.pmn := rfl
@[simp] theorem dropScan_swc (s : State) : (dropScan s).swc = s.swc := rfl
@[simp] theorem dropScan_umt (s : State) : (dropScan s).umt = s.umt := rfl
@[simp] theorem dropScan_fsp (s : State) : (dropScan s).fsp = s.fsp := rfl
@[simp] theorem dropScan_sdc (s : State) : (dropScan s).sdc = s.sdc := rfl
@[simp] theorem dropScan_pcf (s : State) : (dropScan s).pcf = s.pcf := rfl

/-! ### requeue -/

@[simp] theorem requeue_pending (s : State) (i : Nat) : (requeue s i).pending = s.pending := rfl
@[simp] theorem requeue_rstn (s : State) (i : Nat) : (requeue s i).rstn = s.rstn := rfl
@[simp] theorem requeue_settle (s : State) (i : Nat) : (requeue s i).settle = s.settle := rfl
@[simp] theorem requeue_lines (s : State) (i : Nat) : (requeue s i).lines = s.lines := rfl
@[simp] theorem requeue_clock (s : State) (i : Nat) : (requeue s i).clock = s.clock := rfl
@[simp] theorem requeue_nsi (s : State) (i : Nat) : (requeue s i).nsi = s.nsi := rfl
@[simp] theorem requeue_rmu (s : State) (i : Nat) : (requeue s i).rmu = s.rmu := rfl
@[simp] theorem requeue_pmn (s : State) (i : Nat) : (requeue s i).pmn = s.pmn := rfl
@[simp] theorem requeue_swc (s : State) (i : Nat) : (requeue s i).swc = s.swc := rfl
@[simp] theorem requeue_umt (s : State) (i : Nat) : (requeue s i).umt = s.umt := rfl
@[simp] theorem requeue_fsp (s : State) (i : Nat) : (requeue s i).fsp = s.fsp := rfl
@[simp] theorem requeue_sdc (s : State) (i : Nat) : (requeue s i).sdc = s.sdc := rfl
@[simp] theorem requeue_pcf (s : State) (i : Nat) : (requeue s i).pcf = s.pcf := rfl

/-! ### clearActivity -/

@[simp] theorem clearActivity_pending (s : State) : (clearActivity s).pending = s.pending := rfl
@[simp] theorem clearActivity_rstn (s : State) : (clearActivity s).rstn = s.rstn := rfl
@[simp] theorem clearActivity_settle (s : State) : (clearActivity s).settle = s.settle := rfl
@[simp] theorem clearActivity_lines (s : State) : (clearActivity s).lines = s.lines := rfl
@[simp] theorem clearActivity_clock (s : State) : (clearActivity s).clock = s.clock := rfl
@[simp] theorem clearActivity_nsi (s : State) : (clearActivity s).nsi = s.nsi := rfl
@[simp] theorem clearActivity_tsm (s : State) : (clearActivity s).tsm = s.tsm := rfl
@[simp] theorem clearActivity_ple (s : State) : (clearActivity s).ple = s.ple := rfl
@[simp] theorem clearActivity_rmu (s : State) : (clearActivity s).rmu = s.rmu := rfl
@[simp] theorem clearActivity_pmn (s : State) : (clearActivity s).pmn = s.pmn := rfl
@[simp] theorem clearActivity_umt (s : State) : (clearActivity s).umt = s.umt := rfl
@[simp] theorem clearActivity_fsp (s : State) : (clearActivity s).fsp = s.fsp := rfl
@[simp] theorem clearActivity_sdc (s : State) : (clearActivity s).sdc = s.sdc := rfl
@[simp] theorem clearActivity_pcf (s : State) : (clearActivity s).pcf = s.pcf := rfl

/-! ### stopWait -/

@[simp] theorem stopWait_pending (s : State) : (stopWait s).pending = s.pending := rfl
@[simp] theorem stopWait_rstn (s : State) : (stopWait s).rstn = s.rstn := rfl
@[simp] theorem stopWait_settle (s : State) : (stopWait s).settle = s.settle := rfl
@[simp] theorem stopWait_lines (s : State) : (stopWait s).lines = s.lines := rfl
@[simp] theorem stopWait_clock (s : State) : (stopWait s).clock = s.clock := rfl
@[simp] theorem stopWait_nsi (s : State) : (stopWait s).nsi = s.nsi := rfl
@[simp] theorem stopWait_tsm (s : State) : (stopWait s).tsm = s.tsm := rfl
@[simp] theorem stopWait_ple (s : State) : (stopWait s).ple = s.ple := rfl
@[simp] theorem stopWait_rmu (s : State) : (stopWait s).rmu = s.rmu := rfl
@[simp] theorem stopWait_pmn (s : State) : (stopWait s).pmn = s.pmn := rfl
@[simp] theorem stopWait_umt (s : State) : (stopWait s).umt = s.umt := rfl
@[simp] theorem stopWait_fsp (s : State) : (stopWait s).fsp = s.fsp := rfl
@[simp] theorem stopWait_sdc (s : State) : (stopWait s).sdc = s.sdc := rfl
@[simp] theorem stopWait_pcf (s : State) : (stopWait s).pcf = s.pcf := rfl

/-! ### endWait -/

@[simp] theorem endWait_pending (s : State) : (endWait s).pending = s.pending := rfl
@[simp] theorem endWait_rstn (s : State) : (endWait s).rstn = s.rstn := rfl
@[simp] theorem endWait_settle (s : State) : (endWait s).settle = s.settle := rfl
@[simp] theorem endWait_lines (s : State) : (endWait s).lines = s.lines := rfl
@[simp] theorem endWait_clock (s : State) : (endWait s).clock = s.clock := rfl
@[simp] theorem endWait_nsi (s : State) : (endWait s).nsi = s.nsi := rfl
@[simp] theorem endWait_tsm (s : State) : (endWait s).tsm = s.tsm := rfl
@[simp] theorem endWait_ple (s : State) : (endWait s).ple = s.ple := rfl
@[simp] theorem endWait_rmu (s : State) : (endWait s).rmu = s.rmu := rfl
@[simp] theorem endWait_pmn (s : State) : (endWait s).pmn = s.pmn := rfl
@[simp] theorem endWait_umt (s : State) : (endWait s).umt = s.umt := rfl
@[simp] theorem endWait_fsp (s : State) : (endWait s).fsp = s.fsp := rfl
@[simp] theorem endWait_sdc (s : State) : (endWait s).sdc = s.sdc := rfl
@[simp] theorem endWait_pcf (s : State) : (endWait s).pcf = s.pcf := rfl

/-! ### chargeNear -/

@[simp] theorem chargeNear_pending (s : State) : (chargeNear s).pending = s.pending := rfl
@[simp] theorem chargeNear_rstn (s : State) : (chargeNear s).rstn = s.rstn := rfl
@[simp] theorem chargeNear_settle (s : State) : (chargeNear s).settle = s.settle := rfl
@[simp] theorem chargeNear_lines (s : State) : (chargeNear s).lines = s.lines := rfl
@[simp] theorem chargeNear_clock (s : State) : (chargeNear s).clock = s.clock := rfl
@[simp] theorem chargeNear_nsi (s : State) : (chargeNear s).nsi = s.nsi := rfl
@[simp] theorem chargeNear_tsm (s : State) : (chargeNear s).tsm = s.tsm := rfl
@[simp] theorem chargeNear_ple (s : State) : (chargeNear s).ple = s.ple := rfl
@[simp] theorem chargeNear_rmu (s : State) : (chargeNear s).rmu = s.rmu := rfl
@[simp] theorem chargeNear_pmn (s : State) : (chargeNear s).pmn = s.pmn := rfl
@[simp] theorem chargeNear_swc (s : State) : (chargeNear s).swc = s.swc := rfl
@[simp] theorem chargeNear_umt (s : State) : (chargeNear s).umt = s.umt := rfl
@[simp] theorem chargeNear_sdc (s : State) : (chargeNear s).sdc = s.sdc := rfl
@[simp] theorem chargeNear_pcf (s : State) : (chargeNear s).pcf = s.pcf := rfl

/-! ### grantPart -/

@[simp] theorem grantPart_pending (s : State) (a : Access) : (grantPart s a).pending = s.pending := rfl
@[simp] theorem grantPart_rstn (s : State) (a : Access) : (grantPart s a).rstn = s.rstn := rfl
@[simp] theorem grantPart_settle (s : State) (a : Access) : (grantPart s a).settle = s.settle := rfl
@[simp] theorem grantPart_lines (s : State) (a : Access) : (grantPart s a).lines = s.lines := rfl
@[simp] theorem grantPart_clock (s : State) (a : Access) : (grantPart s a).clock = s.clock := rfl
@[simp] theorem grantPart_nsi (s : State) (a : Access) : (grantPart s a).nsi = s.nsi := rfl
@[simp] theorem grantPart_tsm (s : State) (a : Access) : (grantPart s a).tsm = s.tsm := rfl
@[simp] theorem grantPart_ple (s : State) (a : Access) : (grantPart s a).ple = s.ple := rfl
@[simp] theorem grantPart_rmu (s : State) (a : Access) : (grantPart s a).rmu = s.rmu := rfl
@[simp] theorem grantPart_pmn (s : State) (a : Access) : (grantPart s a).pmn = s.pmn := rfl
@[simp] theorem grantPart_swc (s : State) (a : Access) : (grantPart s a).swc = s.swc := rfl
@[simp] theorem grantPart_umt (s : State) (a : Access) : (grantPart s a).umt = s.umt := rfl
@[simp] theorem grantPart_sdc (s : State) (a : Access) : (grantPart s a).sdc = s.sdc := rfl
@[simp] theorem grantPart_pcf (s : State) (a : Access) : (grantPart s a).pcf = s.pcf := rfl

/-! ### setLine -/

@[simp] theorem setLine_pending (s : State) (p : Path) (l : LineState) : (setLine s p l).pending = s.pending := rfl
@[simp] theorem setLine_rstn (s : State) (p : Path) (l : LineState) : (setLine s p l).rstn = s.rstn := rfl
@[simp] theorem setLine_settle (s : State) (p : Path) (l : LineState) : (setLine s p l).settle = s.settle := rfl
@[simp] theorem setLine_lines (s : State) (p : Path) (l : LineState) : (setLine s p l).lines = s.lines := rfl
@[simp] theorem setLine_clock (s : State) (p : Path) (l : LineState) : (setLine s p l).clock = s.clock := rfl
@[simp] theorem setLine_nsi (s : State) (p : Path) (l : LineState) : (setLine s p l).nsi = s.nsi := rfl
@[simp] theorem setLine_tsm (s : State) (p : Path) (l : LineState) : (setLine s p l).tsm = s.tsm := rfl
@[simp] theorem setLine_ple (s : State) (p : Path) (l : LineState) : (setLine s p l).ple = s.ple := rfl
@[simp] theorem setLine_rmu (s : State) (p : Path) (l : LineState) : (setLine s p l).rmu = s.rmu := rfl
@[simp] theorem setLine_swc (s : State) (p : Path) (l : LineState) : (setLine s p l).swc = s.swc := rfl
@[simp] theorem setLine_umt (s : State) (p : Path) (l : LineState) : (setLine s p l).umt = s.umt := rfl
@[simp] theorem setLine_fsp (s : State) (p : Path) (l : LineState) : (setLine s p l).fsp = s.fsp := rfl
@[simp] theorem setLine_sdc (s : State) (p : Path) (l : LineState) : (setLine s p l).sdc = s.sdc := rfl
@[simp] theorem setLine_pcf (s : State) (p : Path) (l : LineState) : (setLine s p l).pcf = s.pcf := rfl

/-! ### clearMark -/

@[simp] theorem clearMark_pending (s : State) (p : Path) : (clearMark s p).pending = s.pending := rfl
@[simp] theorem clearMark_rstn (s : State) (p : Path) : (clearMark s p).rstn = s.rstn := rfl
@[simp] theorem clearMark_settle (s : State) (p : Path) : (clearMark s p).settle = s.settle := rfl
@[simp] theorem clearMark_lines (s : State) (p : Path) : (clearMark s p).lines = s.lines := rfl
@[simp] theorem clearMark_clock (s : State) (p : Path) : (clearMark s p).clock = s.clock := rfl
@[simp] theorem clearMark_nsi (s : State) (p : Path) : (clearMark s p).nsi = s.nsi := rfl
@[simp] theorem clearMark_tsm (s : State) (p : Path) : (clearMark s p).tsm = s.tsm := rfl
@[simp] theorem clearMark_ple (s : State) (p : Path) : (clearMark s p).ple = s.ple := rfl
@[simp] theorem clearMark_rmu (s : State) (p : Path) : (clearMark s p).rmu = s.rmu := rfl
@[simp] theorem clearMark_swc (s : State) (p : Path) : (clearMark s p).swc = s.swc := rfl
@[simp] theorem clearMark_umt (s : State) (p : Path) : (clearMark s p).umt = s.umt := rfl
@[simp] theorem clearMark_fsp (s : State) (p : Path) : (clearMark s p).fsp = s.fsp := rfl
@[simp] theorem clearMark_sdc (s : State) (p : Path) : (clearMark s p).sdc = s.sdc := rfl
@[simp] theorem clearMark_pcf (s : State) (p : Path) : (clearMark s p).pcf = s.pcf := rfl

/-! ### restartStall -/

@[simp] theorem restartStall_pending (s : State) (p : Path) : (restartStall s p).pending = s.pending := rfl
@[simp] theorem restartStall_rstn (s : State) (p : Path) : (restartStall s p).rstn = s.rstn := rfl
@[simp] theorem restartStall_settle (s : State) (p : Path) : (restartStall s p).settle = s.settle := rfl
@[simp] theorem restartStall_lines (s : State) (p : Path) : (restartStall s p).lines = s.lines := rfl
@[simp] theorem restartStall_clock (s : State) (p : Path) : (restartStall s p).clock = s.clock := rfl
@[simp] theorem restartStall_nsi (s : State) (p : Path) : (restartStall s p).nsi = s.nsi := rfl
@[simp] theorem restartStall_tsm (s : State) (p : Path) : (restartStall s p).tsm = s.tsm := rfl
@[simp] theorem restartStall_ple (s : State) (p : Path) : (restartStall s p).ple = s.ple := rfl
@[simp] theorem restartStall_rmu (s : State) (p : Path) : (restartStall s p).rmu = s.rmu := rfl
@[simp] theorem restartStall_swc (s : State) (p : Path) : (restartStall s p).swc = s.swc := rfl
@[simp] theorem restartStall_umt (s : State) (p : Path) : (restartStall s p).umt = s.umt := rfl
@[simp] theorem restartStall_fsp (s : State) (p : Path) : (restartStall s p).fsp = s.fsp := rfl
@[simp] theorem restartStall_sdc (s : State) (p : Path) : (restartStall s p).sdc = s.sdc := rfl
@[simp] theorem restartStall_pcf (s : State) (p : Path) : (restartStall s p).pcf = s.pcf := rfl

/-! ### What the updates set -/

@[simp] theorem setEntry_tsm (s : State) (i : Nat) (e : TxEntry) :
    (setEntry s i e).tsm = { s.tsm with entries := s.tsm.entries.set i e } := rfl

@[simp] theorem setRing_ple (s : State) (p : Path) (r : TxRing) :
    (setRing s p r).ple = { s.ple with rings := s.ple.rings.set p r } := rfl

@[simp] theorem setRec_pmn (s : State) (p : Path) (r : PathRecord) :
    (setRec s p r).pmn = { s.pmn with recs := s.pmn.recs.set p r } := rfl

@[simp] theorem setRxRecs_rmu (s : State) (p : Path) (r : RxRecs) :
    (setRxRecs s p r).rmu = { s.rmu with recs := s.rmu.recs.set p r } := rfl

@[simp] theorem raiseAlert_pcf (s : State) (a : Alert) :
    (raiseAlert s a).pcf = { s.pcf with pending := s.pcf.pending ||| alertBit a } := rfl

@[simp] theorem raiseAlert_sdc (s : State) (a : Alert) :
    (raiseAlert s a).sdc = { s.sdc with seen := s.sdc.seen &&& ~~~ alertBit a } := rfl

@[simp] theorem takeFault_sdc (s : State) (c : FaultCause) (p : Option Path) (i : Option Nat) :
    (takeFault s c p i).sdc = { s.sdc with seen := s.sdc.seen &&& ~~~ alertBit (classAlert (causeClass c)) } := rfl

@[simp] theorem takeFault_part (s : State) (c : FaultCause) (p : Option Path) (i : Option Nat) :
    (takeFault s c p i).pcf.part = s.pcf.part := rfl

@[simp] theorem takeFault_mask (s : State) (c : FaultCause) (p : Option Path) (i : Option Nat) :
    (takeFault s c p i).pcf.mask = s.pcf.mask := rfl

@[simp] theorem requestShort_fsp (s : State) (a : Access) :
    (requestShort s a).fsp = { s.fsp with list := s.fsp.list ++ [a] } := rfl

@[simp] theorem skipEntry_records (s : State) (i : Nat) (st : Status) :
    (skipEntry s i st).tsm.post = s.tsm.post ∧ (skipEntry s i st).tsm.reclaim = s.tsm.reclaim ∧
      (skipEntry s i st).tsm.seqCtr = s.tsm.seqCtr := ⟨rfl, rfl, rfl⟩

@[simp] theorem beginOp_rings (s : State) (i : Nat) (k : OpKind) (p : Path) :
    (beginOp s i k p).ple.rings = s.ple.rings := rfl

@[simp] theorem beginOp_op (s : State) (i : Nat) (k : OpKind) (p : Path) :
    (beginOp s i k p).ple.op = some ⟨i, k, .reading, p⟩ := rfl

end Sys2Proof.Machine
end

