-- ==== Sys2Proof/Laws/Ops.lean ====
section
/-! SUPPORT. What the shared operations read and write: paths, entries, slot records, queues, the short-write list, counts
and meters. -/

namespace Sys2Proof.Machine

/-! ### Values for each path -/

@[simp] theorem PerPath.get_set_same {α : Type} (v : PerPath α) (p : Path) (a : α) : (v.set p a).get p = a := by
  cases p <;> rfl

@[simp] theorem PerPath.get_set_other {α : Type} (v : PerPath α) (p : Path) (a : α) :
    (v.set p a).get (otherPath p) = v.get (otherPath p) := by
  cases p <;> rfl

@[simp] theorem PerPath.set_get {α : Type} (v : PerPath α) (p : Path) : v.set p (v.get p) = v := by
  cases p <;> rfl

@[simp] theorem PerPath.set_set {α : Type} (v : PerPath α) (p : Path) (a b : α) : (v.set p a).set p b = v.set p b := by
  cases p <;> rfl

theorem PerPath.get_set {α : Type} (v : PerPath α) (p q : Path) (a : α) :
    (v.set p a).get q = if q = p then a else v.get q := by
  cases p <;> cases q <;> rfl

@[simp] theorem otherPath_otherPath (p : Path) : otherPath (otherPath p) = p := by cases p <;> rfl

@[simp] theorem otherPath_ne (p : Path) : otherPath p ≠ p := by cases p <;> simp [otherPath]

/-! ### Records of a path -/

@[simp] theorem pathRec_setRec_same (s : State) (p : Path) (r : PathRecord) : (setRec s p r).pathRec p = r :=
  PerPath.get_set_same _ p r

theorem pathRec_setRec (s : State) (p q : Path) (r : PathRecord) :
    (setRec s p r).pathRec q = if q = p then r else s.pathRec q := PerPath.get_set _ p q r

@[simp] theorem setRec_setRec (s : State) (p : Path) (r r' : PathRecord) : setRec (setRec s p r) p r' = setRec s p r' := by
  simp [setRec]

@[simp] theorem setRec_pathRec (s : State) (p : Path) : setRec s p (s.pathRec p) = s := by
  simp [setRec, State.pathRec]

@[simp] theorem ring_setRing_same (s : State) (p : Path) (r : TxRing) : (setRing s p r).ring p = r :=
  PerPath.get_set_same _ p r

theorem ring_setRing (s : State) (p q : Path) (r : TxRing) :
    (setRing s p r).ring q = if q = p then r else s.ring q := PerPath.get_set _ p q r

@[simp] theorem rxRecs_setRxRecs_same (s : State) (p : Path) (r : RxRecs) : (setRxRecs s p r).rxRecs p = r :=
  PerPath.get_set_same _ p r

theorem rxRecs_setRxRecs (s : State) (p q : Path) (r : RxRecs) :
    (setRxRecs s p r).rxRecs q = if q = p then r else s.rxRecs q := PerPath.get_set _ p q r

/-! ### Entries -/

/-- An entry after an entry is replaced: the new one at its slot, the old one elsewhere. -/
theorem entry_setEntry (s : State) (i j : Nat) (e : TxEntry) (h : i < s.tsm.entries.length) :
    (setEntry s i e).entry j = if j = i then e else s.entry j := by
  by_cases hj : j = i
  · subst hj; simp [State.entry, setEntry, List.getD, h]
  · have h2 : ¬ i = j := fun x => hj x.symm
    simp [State.entry, setEntry, List.getD, hj, h2]

@[simp] theorem entry_setEntry_same (s : State) (i : Nat) (e : TxEntry) (h : i < s.tsm.entries.length) :
    (setEntry s i e).entry i = e := by
  simp [entry_setEntry s i i e h]

/-- A slot past the ring has no entry to replace. -/
theorem entry_setEntry_other (s : State) (i j : Nat) (e : TxEntry) (h : j ≠ i) : (setEntry s i e).entry j = s.entry j := by
  have h2 : ¬ i = j := fun x => h x.symm
  simp [State.entry, setEntry, List.getD, h2]

/-- Replacing an entry by one of the same sequence changes no post order. -/
theorem slotOrder_setEntry (s : State) (i j : Nat) (e : TxEntry) (h : e.seq = (s.entry i).seq) :
    (setEntry s i e).slotOrder j = s.slotOrder j := by
  by_cases hi : i < s.tsm.entries.length
  · by_cases hj : j = i
    · subst hj; simp [State.slotOrder, State.orderOf, State.seqBase, hi, h]
    · simp [State.slotOrder, State.orderOf, State.seqBase, entry_setEntry, hi, hj]
  · have : s.tsm.entries.set i e = s.tsm.entries := List.set_eq_of_length_le (Nat.le_of_not_lt hi)
    simp [State.slotOrder, State.orderOf, State.seqBase, State.entry, setEntry, this]

/-! ### Queues -/

/-- An insertion by a key goes before the first element above the new one. -/
theorem insertBy_insertedAt {α : Type} (key : α → Nat) (a : α) (l : List α) : insertedAt key a l (insertBy key a l) := by
  induction l with
  | nil => exact ⟨[], [], rfl, rfl, by simp, by simp⟩
  | cons b rest ih =>
    by_cases h : key a < key b
    · exact ⟨[], b :: rest, rfl, by simp [insertBy, h], by simp, by simpa using h⟩
    · obtain ⟨front, back, h1, h2, h3, h4⟩ := ih
      refine ⟨b :: front, back, by simp [h1], by simp [insertBy, h, h2], ?_, h4⟩
      intro c hc
      rcases List.mem_cons.mp hc with rfl | hc
      · exact Nat.le_of_not_lt h
      · exact h3 c hc

/-- An insertion keeps every element and adds the new one. -/
theorem mem_insertBy {α : Type} (key : α → Nat) (a c : α) (l : List α) : c ∈ insertBy key a l ↔ c = a ∨ c ∈ l := by
  induction l with
  | nil => simp [insertBy]
  | cons b rest ih =>
    by_cases h : key a < key b
    · simp [insertBy, h]
    · simp only [insertBy, h, if_false, List.mem_cons, ih]
      constructor
      · rintro (h | h | h) <;> simp [h]
      · rintro (h | h | h) <;> simp [h]

theorem length_insertBy {α : Type} (key : α → Nat) (a : α) (l : List α) :
    (insertBy key a l).length = l.length + 1 := by
  induction l with
  | nil => rfl
  | cons b rest ih => by_cases h : key a < key b <;> simp [insertBy, h, ih]

/-! ### The short-write list -/

/-- The later of two waiting header writes takes the new data word and keeps its place. -/
theorem replaceLastHeader_spec (w : Nat) (v : Word) (l : List Access) (h : 1 ≤ (l.filter (isHeaderWrite w)).length) :
    ∃ front b back, l = front ++ b :: back ∧ isHeaderWrite w b = true ∧ (∀ c ∈ back, isHeaderWrite w c = false) ∧
      replaceLastHeader w v l = front ++ { b with words := [v] } :: back := by
  induction l with
  | nil => simp at h
  | cons a rest ih =>
    by_cases hr : rest.any (isHeaderWrite w) = true
    · have h1 : 1 ≤ (rest.filter (isHeaderWrite w)).length := by
        obtain ⟨x, hx, hx2⟩ := List.any_eq_true.mp hr
        exact List.length_pos_of_mem (List.mem_filter.mpr ⟨hx, hx2⟩)
      obtain ⟨front, b, back, e1, e2, e3, e4⟩ := ih h1
      exact ⟨a :: front, b, back, by simp [e1], e2, e3, by simp [replaceLastHeader, hr, e4]⟩
    · have hr' : rest.any (isHeaderWrite w) = false := by simpa using hr
      have hr2 : ∀ c ∈ rest, isHeaderWrite w c = false := by
        intro c hc
        cases hx : isHeaderWrite w c with
        | false => rfl
        | true => exact absurd (List.any_eq_true.mpr ⟨c, hc, hx⟩) hr
      have ha : isHeaderWrite w a = true := by
        cases hx : isHeaderWrite w a with
        | true => rfl
        | false =>
          rw [List.filter_cons_of_neg (by simp [hx]), List.filter_eq_nil_iff.mpr (by simpa using hr2)] at h
          simp at h
      exact ⟨[], a, rest, rfl, ha, hr2, by simp [replaceLastHeader, ha, hr']⟩

/-- A header write joins the list, or replaces the data word of the later of two that wait (R164). -/
theorem requestHeader_spec (s : State) (w : Nat) (v : Word) :
    requestHeader s w v = { s with fsp.list := (requestHeader s w v).fsp.list } ∧
      headerRequested (headerAccess s w v) s.fsp.list (requestHeader s w v).fsp.list := by
  unfold requestHeader headerRequested headerAccess
  by_cases h : 2 ≤ (s.fsp.list.filter (isHeaderWrite w)).length
  · simp only [h, if_true, true_and, forall_const]
    exact ⟨fun h2 => absurd h2 (by omega), replaceLastHeader_spec w v _ (by omega)⟩
  · simp only [h, if_false, requestShort, true_and]
    exact ⟨fun _ => trivial, fun h2 => h2.elim⟩

/-! ### Counts and meters -/

theorem satInc_le (b n : Nat) : satInc b n ≤ b := by
  unfold satInc; split <;> omega

theorem le_satInc (b n : Nat) (h : n ≤ b) : n ≤ satInc b n := by
  unfold satInc; split <;> omega

/-- A meter only rises. -/
theorem le_addBytes (m : BitVec 64) (n : Nat) : m.toNat ≤ (addBytes m n).toNat := by
  unfold addBytes
  split
  · rename_i h
    rw [BitVec.toNat_ofNat, Nat.mod_eq_of_lt h]; omega
  · rw [BitVec.toNat_allOnes]; omega

/-- Flap entries leave from the oldest while they are older than the window. -/
theorem expireFlaps_eq (now : BitVec 32) (window : Nat) (l : List (BitVec 32)) :
    expireFlaps now window l = l.dropWhile (fun t => decide (window * 60000 < ageOf now t)) := by
  induction l with
  | nil => rfl
  | cons t rest ih =>
    by_cases h : window * 60000 < ageOf now t <;> simp [expireFlaps, h, ih]

/-! ### The geometry test -/

theorem disjointRegions_iff (p q : Nat × Nat) (hp : 0 < p.2) (hq : 0 < q.2) :
    disjointRegions p q = true ↔ ∀ a : Nat, ¬ ((p.1 ≤ a ∧ a < p.1 + p.2) ∧ (q.1 ≤ a ∧ a < q.1 + q.2)) := by
  simp only [disjointRegions, Bool.or_eq_true, decide_eq_true_eq]
  constructor
  · intro h a ha; omega
  · intro h
    by_cases h1 : p.1 ≤ q.1
    · have := h q.1; omega
    · have := h p.1; omega

theorem allDisjoint_iff (l : List (Nat × Nat)) (h : ∀ r ∈ l, 0 < r.2) :
    allDisjoint l = true ↔
      l.Pairwise (fun p q => ∀ a : Nat, ¬ ((p.1 ≤ a ∧ a < p.1 + p.2) ∧ (q.1 ≤ a ∧ a < q.1 + q.2))) := by
  induction l with
  | nil => simp [allDisjoint]
  | cons r rest ih =>
    have h2 : ∀ q ∈ rest, 0 < q.2 := fun q hq => h q (List.mem_cons_of_mem _ hq)
    simp only [allDisjoint, Bool.and_eq_true, List.all_eq_true, List.pairwise_cons, ih h2]
    constructor
    · rintro ⟨h3, h4⟩
      exact ⟨fun q hq => (disjointRegions_iff r q (h r (by simp)) (h2 q hq)).mp (h3 q hq), h4⟩
    · rintro ⟨h3, h4⟩
      exact ⟨fun q hq => (disjointRegions_iff r q (h r (by simp)) (h2 q hq)).mpr (h3 q hq), h4⟩

/-- Every region of a geometry holds a word. -/
theorem Geometry.regions_pos (g : Geometry) : ∀ r ∈ g.regions, 0 < r.2 := by
  intro r hr
  simp only [Geometry.regions, serviceSlots, pathSlots, List.mem_cons, List.not_mem_nil, or_false] at hr
  rcases hr with rfl | rfl | rfl | rfl | rfl | rfl | rfl <;>
    first
      | exact Nat.mul_pos (by decide) (Nat.mul_pos (by decide) (Nat.two_pow_pos _))
      | exact Nat.succ_pos 11

/-- START's test of the geometry is the condition of R188. -/
theorem Geometry.accepted_iff (g : Geometry) : g.accepted = true ↔ g.fits := by
  unfold Geometry.accepted Geometry.fits
  rw [Bool.and_eq_true, Bool.and_eq_true, allDisjoint_iff _ g.regions_pos, and_assoc]
  constructor
  · rintro ⟨h1, h2, h3⟩
    refine ⟨by simpa [Geometry.allSet, and_assoc] using h1, ?_, h3⟩
    intro r hr
    have := List.all_eq_true.mp h2 r hr
    simp at this; omega
  · rintro ⟨h1, h2, h3⟩
    refine ⟨by simpa [Geometry.allSet, and_assoc] using h1, ?_, h3⟩
    rw [List.all_eq_true]
    intro r hr
    have h4 := h2 r hr
    have h5 := g.regions_pos r hr
    simp; omega

end Sys2Proof.Machine
end

