-- ==== Sys2Proof/Laws/Work.lean ====
section
/-! SUPPORT. What the radio power sequencer, a service path change, the engine's steps and the zero-time work can change:
one lemma for each shared operation. -/

namespace Sys2Proof.Machine

/-! ### The radio power sequencer -/

/-- What the sequencer and the standby condition keep of the path monitor: all but the radio's health, its counts of the
trial and the silence, its stall timer, and the power sequencer (R106). -/
def MonitorKept (m n : Pmn) : Prop :=
  n = { m with
    recs := ⟨m.recs.fibre,
      { m.recs.radio with
        health := n.recs.radio.health, trial := n.recs.radio.trial, silence := n.recs.radio.silence,
        stall := n.recs.radio.stall }⟩
    power := n.power }

theorem MonitorKept.refl (m : Pmn) : MonitorKept m m := rfl

theorem MonitorKept.trans {m n o : Pmn} (h : MonitorKept m n) (k : MonitorKept n o) : MonitorKept m o := by
  unfold MonitorKept at *
  rw [h] at k
  exact k

/-- The standby condition touches the sequencer and the radio's record only. -/
theorem evalStandby_frame (s : State) :
    evalStandby s = { s with pmn := (evalStandby s).pmn } ∧ MonitorKept s.pmn (evalStandby s).pmn := by
  unfold evalStandby
  split
  · split <;> exact ⟨rfl, rfl⟩
  · split <;> exact ⟨rfl, rfl⟩
  · split <;> exact ⟨rfl, rfl⟩
  · exact ⟨rfl, rfl⟩

/-- The standby condition after a change of the keep timer. -/
theorem keep_frame (s : State) (keep : Timer) :
    evalStandby { s with pmn.power.keep := keep } =
        { s with pmn := (evalStandby { s with pmn.power.keep := keep }).pmn } ∧
      MonitorKept s.pmn (evalStandby { s with pmn.power.keep := keep }).pmn := by
  have h := evalStandby_frame { s with pmn.power.keep := keep }
  exact ⟨by rw [h.1], MonitorKept.trans (n := { s.pmn with power.keep := keep }) rfl h.2⟩

/-- A service path change reaches the path monitor's radio side only. -/
theorem reportService_frame (s : State) :
    reportService s = { s with pmn := (reportService s).pmn } ∧ MonitorKept s.pmn (reportService s).pmn := by
  unfold reportService
  split
  · split
    · exact keep_frame s _
    · exact evalStandby_frame s
  · exact keep_frame s _

/-! ### What the switch controller's work may touch -/

/-- What one piece of the zero-time work may change: the parts the switch and the engine own, and the alerts SWITCHED and
FAILBACK_HELD, which leave the seen set. -/
structure SwitchFrame (s t : State) : Prop where
  frame : t = { s with
    tsm.entries := t.tsm.entries, ple.placementQ := t.ple.placementQ, ple.deferralQ := t.ple.deferralQ,
    ple.op := t.ple.op, ple.rexPending := t.ple.rexPending, ple.rescan := t.ple.rescan, ple.scan := t.ple.scan,
    ple.claim := t.ple.claim, swc := t.swc, pmn := t.pmn, fsp.list := t.fsp.list, fsp.copyReq := t.fsp.copyReq,
    fsp.streak := t.fsp.streak, pcf := t.pcf, sdc.seen := t.sdc.seen }
  size : t.tsm.entries.length = s.tsm.entries.length
  monitor : MonitorKept s.pmn t.pmn
  switch : t.swc =
    { t.swc with mode := s.swc.mode, force := s.swc.force, voice := s.swc.voice, emergency := s.swc.emergency }
  alerts : ∃ raised : BitVec 7, raised &&& 0x2F = 0 ∧ t.pcf = { s.pcf with pending := s.pcf.pending ||| raised } ∧
    t.sdc.seen = s.sdc.seen &&& ~~~ raised

/-- A change of the entries, the engine, the far requests and the switch, with the monitor and the alerts as they were. -/
theorem SwitchFrame.quiet {s t : State}
    (frame : t = { s with
      tsm.entries := t.tsm.entries, ple.placementQ := t.ple.placementQ, ple.deferralQ := t.ple.deferralQ,
      ple.op := t.ple.op, ple.rexPending := t.ple.rexPending, ple.rescan := t.ple.rescan, ple.scan := t.ple.scan,
      ple.claim := t.ple.claim, swc := t.swc, fsp.list := t.fsp.list, fsp.copyReq := t.fsp.copyReq,
      fsp.streak := t.fsp.streak })
    (size : t.tsm.entries.length = s.tsm.entries.length)
    (switch : t.swc =
      { t.swc with mode := s.swc.mode, force := s.swc.force, voice := s.swc.voice, emergency := s.swc.emergency }) :
    SwitchFrame s t := by
  have pmn : t.pmn = s.pmn := by rw [frame]
  have pcf : t.pcf = s.pcf := by rw [frame]
  have sdc : t.sdc = s.sdc := by rw [frame]
  refine ⟨?_, size, ?_, switch, 0, by decide, ?_, ?_⟩
  · rw [pmn, pcf, sdc]; exact frame
  · rw [pmn]; exact MonitorKept.refl _
  · have none : s.pcf.pending ||| 0 = s.pcf.pending := BitVec.or_zero
    rw [pcf, none]
  · rw [sdc]
    exact (BitVec.and_allOnes (x := s.sdc.seen)).symm

theorem SwitchFrame.refl (s : State) : SwitchFrame s s := SwitchFrame.quiet rfl rfl rfl

theorem SwitchFrame.trans {s t u : State} (h : SwitchFrame s t) (k : SwitchFrame t u) : SwitchFrame s u := by
  obtain ⟨a, ha, pa, sa⟩ := h.alerts
  obtain ⟨b, hb, pb, sb⟩ := k.alerts
  refine ⟨?_, k.size.trans h.size, h.monitor.trans k.monitor, ?_, a ||| b, ?_, ?_, ?_⟩
  · have x := h.frame
    have y := k.frame
    rw [x] at y
    exact y
  · have x := h.switch
    have y := k.switch
    rw [x] at y
    exact y
  · rw [BitVec.and_comm, BitVec.and_or_distrib_left, BitVec.and_comm _ a, BitVec.and_comm _ b, ha, hb]; rfl
  · rw [pb, pa, BitVec.or_assoc]
  · rw [sb, sa, BitVec.not_or, BitVec.and_assoc]

/-! ### The engine's steps -/

theorem skipEntry_length (s : State) (i : Nat) (st : Status) :
    (skipEntry s i st).tsm.entries.length = s.tsm.entries.length := by
  simp [skipEntry, requestService, requestShort, setEntry]

theorem beginOp_frame (s : State) (i : Nat) (k : OpKind) (p : Path) : SwitchFrame s (beginOp s i k p) :=
  SwitchFrame.quiet rfl (by simp [beginOp, setEntry]) rfl

theorem skipEntry_frame (s : State) (i : Nat) (st : Status) : SwitchFrame s (skipEntry s i st) :=
  SwitchFrame.quiet rfl (skipEntry_length s i st) rfl

/-- Replacing the queues, the scan and the marks of the engine. -/
theorem engineFields_frame (s : State) (q : List Nat) (d : List DeferralRec) (a b : Bool) (c : Option Scan) :
    SwitchFrame s { s with
      ple.placementQ := q, ple.deferralQ := d, ple.rexPending := a, ple.rescan := b, ple.scan := c } :=
  SwitchFrame.quiet rfl rfl rfl

/-- A scan's step changes entries, the engine and the short-write list only. -/
theorem scanStep_frame (s : State) (c : Scan) (p : Path) :
    SwitchFrame s (scanStep s c p) ∧ (scanStep s c p).swc = s.swc ∧ (scanStep s c p).pmn = s.pmn ∧
      (scanStep s c p).pcf = s.pcf ∧ (scanStep s c p).sdc = s.sdc ∧ (scanStep s c p).ple.claim = s.ple.claim := by
  unfold scanStep
  split
  · exact ⟨engineFields_frame s _ _ _ _ _, rfl, rfl, rfl, rfl, rfl⟩
  · rename_i r _
    simp only
    have keep : ∀ x, SwitchFrame s { s with ple.scan := some x } := fun x => engineFields_frame s _ _ _ _ _
    have leave : ∀ x, SwitchFrame s (removeRecord { s with ple.scan := some x } r.slot) :=
      fun x => engineFields_frame s _ _ _ _ _
    split
    · exact ⟨keep _, rfl, rfl, rfl, rfl, rfl⟩
    · split
      · exact ⟨(leave _).trans (skipEntry_frame _ _ _), rfl, rfl, rfl, rfl, rfl⟩
      · exact ⟨keep _, rfl, rfl, rfl, rfl, rfl⟩
      · split
        · exact ⟨keep _, rfl, rfl, rfl, rfl, rfl⟩
        · exact ⟨(leave _).trans (beginOp_frame _ _ _ _), rfl, rfl, rfl, rfl, rfl⟩

/-- The engine's step changes entries, the engine and the far requests only. -/
theorem engineStep_frame (s t : State) (h : engineStep s = some t) :
    SwitchFrame s t ∧ t.swc = s.swc ∧ t.pmn = s.pmn ∧ t.pcf = s.pcf ∧ t.sdc = s.sdc ∧ t.ple.claim = s.ple.claim := by
  have begun : ∀ (d : List DeferralRec) (q : List Nat) (i : Nat) (k : OpKind) (p : Path),
      SwitchFrame s (beginOp { s with ple.deferralQ := d, ple.placementQ := q } i k p) := fun d q i k p =>
    (engineFields_frame s q d s.ple.rexPending s.ple.rescan s.ple.scan).trans (beginOp_frame _ _ _ _)
  unfold engineStep at h
  split at h
  · split at h
    · injection h with h; subst h; exact scanStep_frame s _ _
    · split at h
      · injection h with h; subst h
        exact ⟨engineFields_frame s _ _ _ _ _, rfl, rfl, rfl, rfl, rfl⟩
      · split at h
        · split at h
          · injection h with h; subst h
            exact ⟨begun _ _ _ _ _, rfl, rfl, rfl, rfl, rfl⟩
          · split at h
            · exact absurd h (by simp)
            · injection h with h; subst h
              exact ⟨begun _ _ _ _ _, rfl, rfl, rfl, rfl, rfl⟩
        · injection h with h; subst h
          exact ⟨begun _ _ _ _ _, rfl, rfl, rfl, rfl, rfl⟩
        · exact absurd h (by simp)
  · exact absurd h (by simp)

/-! ### The switch controller's operations -/

/-- A service path change. -/
theorem setService_frame (s : State) (p : Option Path) :
    setService s p = { s with swc := (setService s p).swc, pmn := (setService s p).pmn } ∧
      MonitorKept s.pmn (setService s p).pmn ∧
      (setService s p).swc =
        { s.swc with
          service := p
          voice := if p = none then ⟨false, none⟩ else s.swc.voice
          emergency := if p = none then ⟨false, none⟩ else s.swc.emergency } := by
  have h := reportService_frame { s with swc.service := p }
  unfold setService
  simp only
  by_cases e : s.swc.service = p
  · subst e
    by_cases n : s.swc.service = none
    · simp [n, clearActivity, MonitorKept.refl]
    · simp [n, MonitorKept.refl]
  · simp only [e, if_false]
    have hswc : (reportService { s with swc.service := p }).swc = { s.swc with service := p } := by rw [h.1]
    by_cases n : p = none
    · subst n
      refine ⟨?_, h.2, ?_⟩
      · simp only [if_true, clearActivity]; rw [h.1]
      · simp [clearActivity, hswc]
    · simp only [n, if_false]
      refine ⟨?_, h.2, hswc⟩
      rw [h.1]

/-- The end of an operation changes the engine and the migration's step only. -/
theorem endOp_frame (s : State) (b : Option Cls) :
    SwitchFrame s (endOp s b) ∧ (endOp s b).pcf = s.pcf ∧ (endOp s b).pmn = s.pmn ∧ (endOp s b).sdc = s.sdc ∧
      (endOp s b).ple.claim = s.ple.claim ∧ (endOp s b).tsm = s.tsm ∧
      (endOp s b).swc = { s.swc with step := (endOp s b).swc.step } := by
  have f : ∀ (o : Option Operation) (a c : Bool) (k : Option Scan) (st : Option Nat),
      SwitchFrame s { s with ple.op := o, ple.rexPending := a, ple.rescan := c, ple.scan := k, swc.step := st } :=
    fun _ _ _ _ _ => SwitchFrame.quiet rfl rfl rfl
  unfold endOp
  split
  · exact ⟨SwitchFrame.refl s, rfl, rfl, rfl, rfl, rfl, rfl⟩
  · split
    · exact ⟨f _ _ _ _ _, rfl, rfl, rfl, rfl, rfl, rfl⟩
    · exact ⟨f _ _ _ _ _, rfl, rfl, rfl, rfl, rfl, rfl⟩
    · split
      · split <;> exact ⟨f _ _ _ _ _, rfl, rfl, rfl, rfl, rfl, rfl⟩
      · exact ⟨f _ _ _ _ _, rfl, rfl, rfl, rfl, rfl, rfl⟩

theorem requeue_frame (s : State) (i : Nat) :
    SwitchFrame s (requeue s i) ∧ (requeue s i).pcf = s.pcf ∧ (requeue s i).pmn = s.pmn ∧
      (requeue s i).swc = s.swc ∧ (requeue s i).ple.claim = s.ple.claim :=
  ⟨SwitchFrame.quiet rfl (by simp [requeue, setEntry]) rfl, rfl, rfl, rfl, rfl⟩

/-- An abandonment changes the entry, the queues and the engine. -/
theorem abandonOp_frame (s : State) :
    SwitchFrame s (abandonOp s) ∧ (abandonOp s).pcf = s.pcf ∧ (abandonOp s).pmn = s.pmn ∧
      (abandonOp s).sdc = s.sdc ∧ (abandonOp s).ple.claim = s.ple.claim ∧
      (abandonOp s).swc = { s.swc with step := (abandonOp s).swc.step } := by
  unfold abandonOp
  split
  · exact ⟨SwitchFrame.refl s, rfl, rfl, rfl, rfl, rfl⟩
  · rename_i o _
    have h := endOp_frame (requeue s o.slot) none
    have k := requeue_frame s o.slot
    exact ⟨k.1.trans h.1, h.2.1.trans k.2.1, h.2.2.1.trans k.2.2.1, h.2.2.2.1, h.2.2.2.2.1.trans k.2.2.2.2,
      h.2.2.2.2.2.2⟩

/-- A claim makes the claim PENDING and touches the engine, an abandoned entry and the step only. -/
theorem claimEngine_frame (s : State) :
    SwitchFrame s (claimEngine s) ∧ (claimEngine s).pcf = s.pcf ∧ (claimEngine s).pmn = s.pmn ∧
      (claimEngine s).sdc = s.sdc ∧ (claimEngine s).ple.claim = .pending ∧
      (claimEngine s).swc = { s.swc with step := (claimEngine s).swc.step } := by
  have f : ∀ (a c : Bool) (k : Option Scan),
      SwitchFrame s { s with ple.rexPending := a, ple.rescan := c, ple.scan := k, ple.claim := .pending } :=
    fun _ _ _ => SwitchFrame.quiet rfl rfl rfl
  have g : ∀ t : State, SwitchFrame s t → t.pcf = s.pcf → t.pmn = s.pmn → t.sdc = s.sdc → t.swc = s.swc →
      t.ple.claim = .pending →
      let u := match t.ple.op with
        | some o => if o.phase = .waiting then abandonOp t else t
        | none => t
      SwitchFrame s u ∧ u.pcf = s.pcf ∧ u.pmn = s.pmn ∧ u.sdc = s.sdc ∧ u.ple.claim = .pending ∧
        u.swc = { s.swc with step := u.swc.step } := by
    intro t h1 h2 h3 h4 h5 h6
    have a := abandonOp_frame t
    simp only
    split
    · split
      · refine ⟨h1.trans a.1, a.2.1.trans h2, a.2.2.1.trans h3, a.2.2.2.1.trans h4, a.2.2.2.2.1.trans h6, ?_⟩
        rw [← h5]; exact a.2.2.2.2.2
      · exact ⟨h1, h2, h3, h4, h6, by rw [h5]⟩
    · exact ⟨h1, h2, h3, h4, h6, by rw [h5]⟩
  have g1 := g { s with ple.claim := .pending } (f s.ple.rexPending s.ple.rescan s.ple.scan) rfl rfl rfl rfl rfl
  have g2 := g { s with ple.claim := .pending, ple.rexPending := false, ple.rescan := false }
    (f false false s.ple.scan) rfl rfl rfl rfl rfl
  have g3 := g { s with ple.claim := .pending, ple.scan := none, ple.rexPending := false, ple.rescan := false }
    (f false false none) rfl rfl rfl rfl rfl
  unfold claimEngine dropScan
  by_cases n : s.ple.scan.isNone = true
  · simp only [n, if_true]; exact g1
  · cases o : s.ple.op with
    | none => simpa only [n, o, Bool.false_eq_true, if_false] using g3
    | some x => simpa only [n, o, Bool.false_eq_true, if_false] using g2

/-- The start of a migration toward a path. -/
theorem startMigration_frame (s : State) (p : Path) (k : MigrationKind) :
    SwitchFrame s (startMigration s (some p) k) ∧ (startMigration s (some p) k).pcf = s.pcf ∧
      (startMigration s (some p) k).sdc = s.sdc ∧ (startMigration s (some p) k).ple.claim = .pending := by
  unfold startMigration
  simp only [reduceCtorEq, if_false]
  generalize e : ({ s with swc.state := .migrating, swc.target := some (some p), swc.kind := some k } : State) = s1
  have h := setService_frame s1 (some p)
  have c := claimEngine_frame (setService s1 (some p))
  have same : (setService s1 (some p)).pcf = s.pcf ∧ (setService s1 (some p)).sdc = s.sdc := by
    rw [h.1]; subst e; exact ⟨rfl, rfl⟩
  have f : SwitchFrame s (setService s1 (some p)) := by
    have q := SwitchFrame.refl s
    subst e
    refine ⟨?_, ?_, h.2.1, ?_, ?_⟩
    · rw [h.1]
    · rw [h.1]
    · rw [h.2.2]; rfl
    · rw [same.1, same.2]; exact q.alerts
  exact ⟨f.trans c.1, c.2.1.trans same.1, c.2.2.2.1.trans same.2, c.2.2.2.2.1⟩

/-! ### One piece of the zero-time work -/

/-- The alerts the work raises. -/
theorem raiseAlert_frame (s : State) (a : Alert) (h : alertBit a &&& 0x2F = 0) : SwitchFrame s (raiseAlert s a) :=
  ⟨rfl, rfl, MonitorKept.refl _, rfl, alertBit a, h, rfl, rfl⟩

/-- A change of the switch and of the claim, with the mode, the force and the activity flags as they were. -/
theorem swcFields_frame (s : State) (x : Swc)
    (h : x = { x with mode := s.swc.mode, force := s.swc.force, voice := s.swc.voice, emergency := s.swc.emergency })
    (c : Claim) : SwitchFrame s { s with swc := x, ple.claim := c } :=
  SwitchFrame.quiet rfl rfl h

theorem prompt_frame (s : State) : SwitchFrame s (prompt s) := by
  unfold prompt
  split
  · split <;> exact engineFields_frame s _ _ _ _ _
  · exact SwitchFrame.refl s

theorem testWait_frame (s : State) : SwitchFrame s (testWait s) := by
  unfold testWait
  split
  · exact (swcFields_frame s { s.swc with wait := none, expired := false } rfl s.ple.claim).trans
      (startMigration_frame _ _ _).1
  · exact SwitchFrame.refl s

theorem arrivalTrigger_frame (s : State) : SwitchFrame s (arrivalTrigger s) := by
  unfold arrivalTrigger
  split
  · split
    · exact (startMigration_frame _ _ _).1
    · split
      · exact (startMigration_frame _ _ _).1
      · exact SwitchFrame.refl s
  · exact SwitchFrame.refl s

theorem failbackTest_frame (s : State) : SwitchFrame s (failbackTest s) := by
  unfold failbackTest
  split
  · split
    · exact raiseAlert_frame s _ rfl
    · split
      · exact ((swcFields_frame s { s.swc with state := .waiting, wait := some 0, expired := false } rfl
          s.ple.claim).trans (raiseAlert_frame _ _ rfl)).trans (testWait_frame _)
      · exact SwitchFrame.refl s
  · exact SwitchFrame.refl s

/-- The engine's own work changes entries, the engine and the far requests only. -/
theorem runEngine_frame (n : Nat) (s : State) :
    SwitchFrame s (runEngine n s) ∧ (runEngine n s).swc = s.swc ∧ (runEngine n s).pmn = s.pmn ∧
      (runEngine n s).pcf = s.pcf ∧ (runEngine n s).sdc = s.sdc ∧ (runEngine n s).ple.claim = s.ple.claim := by
  induction n generalizing s with
  | zero => exact ⟨SwitchFrame.refl s, rfl, rfl, rfl, rfl, rfl⟩
  | succ n ih =>
    unfold runEngine
    split
    · exact ⟨SwitchFrame.refl s, rfl, rfl, rfl, rfl, rfl⟩
    · rename_i t h
      have a := engineStep_frame s t h
      have b := ih t
      exact ⟨a.1.trans b.1, b.2.1.trans a.2.1, b.2.2.1.trans a.2.2.1, b.2.2.2.1.trans a.2.2.2.1,
        b.2.2.2.2.1.trans a.2.2.2.2.1, b.2.2.2.2.2.trans a.2.2.2.2.2⟩

theorem settleEngine_frame (s : State) : SwitchFrame s (settleEngine s) := (runEngine_frame _ s).1

/-- With no claim the zero-time work is the engine's own. -/
theorem workStep_engine (s : State) (h : s.ple.claim = .none) : workStep s = engineStep s := by
  unfold workStep; rw [h]

/-- With no claim the zero-time work runs as the engine does. -/
theorem runWork_engine (n : Nat) (s : State) (h : s.ple.claim = .none) : runWork n s = runEngine n s := by
  induction n generalizing s with
  | zero => rfl
  | succ n ih =>
    unfold runWork runEngine
    rw [workStep_engine s h]
    cases e : engineStep s with
    | none => rfl
    | some t => exact ih t ((engineStep_frame s t e).2.2.2.2.2.trans h)

/-- The end of a migration. -/
theorem endMigration_frame (s : State) : SwitchFrame s (endMigration s) := by
  unfold endMigration
  simp only
  have h1 := swcFields_frame s { s.swc with state := .steady, target := none, kind := none, step := none } rfl
    .none
  have h2 := h1.trans (settleEngine_frame _)
  have h3 := (h2.trans (prompt_frame _)).trans (settleEngine_frame _)
  have counted : ∀ t : State, SwitchFrame s t →
      SwitchFrame s (match s.swc.kind with
        | some .failover => { t with swc.failovers := satInc 65535 t.swc.failovers }
        | some .failback => { t with swc.failbacks := satInc 65535 t.swc.failbacks }
        | some .arrival => t
        | some .forced => t
        | none => t) := by
    intro t ht
    split
    · exact ht.trans (swcFields_frame t { t.swc with failovers := satInc 65535 t.swc.failovers } rfl t.ple.claim)
    · exact ht.trans (swcFields_frame t { t.swc with failbacks := satInc 65535 t.swc.failbacks } rfl t.ple.claim)
    · exact ht
    · exact ht
    · exact ht
  have finish : ∀ t : State, SwitchFrame s t → SwitchFrame s
      (if t.swc.service = none then arrivalTrigger t else if t.swc.service = some .radio then failbackTest t else t) := by
    intro t ht
    split
    · exact ht.trans (arrivalTrigger_frame t)
    · split
      · exact ht.trans (failbackTest_frame t)
      · exact ht
  by_cases hr : s.swc.target.getD none = some .radio
  · simp only [hr, if_true]
    exact finish _ (counted _ (h3.trans (raiseAlert_frame _ _ rfl)))
  · simp only [hr, if_false]
    exact finish _ (counted _ (h2.trans (raiseAlert_frame _ _ rfl)))

theorem examine_frame (s : State) (i : MigrationItem) (rest : List MigrationItem) : SwitchFrame s (examine s i rest) := by
  unfold examine
  simp only
  split
  · refine SwitchFrame.quiet rfl ?_ rfl
    simp [requestWithdrawal, requestShort, setEntry]
  · exact swcFields_frame s { s.swc with list := rest } rfl s.ple.claim

/-- One piece of the zero-time work changes what the switch and the engine own. -/
theorem workStep_frame (s t : State) (h : workStep s = some t) : SwitchFrame s t := by
  unfold workStep at h
  split at h
  · exact (engineStep_frame s t h).1
  · split at h
    · injection h with h; subst h
      exact swcFields_frame s { s.swc with list := s.migrationList (s.swc.target.getD none) } rfl .held
    · exact absurd h (by simp)
  · split at h
    · split at h
      · injection h with h; subst h; exact endMigration_frame s
      · injection h with h; subst h; exact examine_frame s _ _
    · exact absurd h (by simp)

/-! ### Work at rest -/

/-- At rest the work changes nothing. -/
theorem runWork_rest (n : Nat) (s : State) (h : workStep s = none) : runWork n s = s := by
  cases n with
  | zero => rfl
  | succ n => simp [runWork, h]

/-- The zero-time work changes what the switch and the engine own. -/
theorem runWork_frame (n : Nat) (s : State) : SwitchFrame s (runWork n s) := by
  induction n generalizing s with
  | zero => exact SwitchFrame.refl s
  | succ n ih =>
    unfold runWork
    split
    · exact SwitchFrame.refl s
    · rename_i t h
      exact (workStep_frame s t h).trans (ih t)

theorem settleWork_rest (s : State) (h : s.atRest) : settleWork s = syncTimers s := by
  unfold settleWork; rw [runWork_rest _ s h]

/-- No work is done outside ACTIVE. -/
theorem workStep_inactive (s : State) (h : s.pcf.part ≠ .active) : workStep s = none := by
  have e : engineStep s = none := by
    unfold engineStep; split
    · rename_i h1 _ _ _; exact absurd h1 h
    · rfl
  unfold workStep
  split
  · exact e
  · simp [h]
  · simp [h]

/-! ### Timers brought in line -/

theorem syncStreak_frame (s : State) : syncStreak s = { s with fsp.streak := (syncStreak s).fsp.streak } := by
  unfold syncStreak; split <;> rfl

/-- Only the stall timer of the path can change. -/
theorem syncStall_frame (s : State) (p : Path) :
    syncStall s p = setRec s p { s.pathRec p with stall := ((syncStall s p).pathRec p).stall } := by
  unfold syncStall
  simp only
  split
  · split
    · simp
    · exact (setRec_pathRec s p).symm
  · simp

end Sys2Proof.Machine
end

