-- ==== Sys2Proof/Laws/Engine.lean ====
section
/-! SUPPORT. The engine's own work comes to its end within its fuel, and the timers brought in line. -/

namespace Sys2Proof.Machine

/-- A record is newer than a scan position (R65). -/
def State.newerThan (s : State) (pos : Option Word) (r : DeferralRec) : Bool :=
  match pos with
  | none => true
  | some p => decide (s.orderOf p < s.deferralOrder r)

theorem nextRecord_eq (s : State) (c : Scan) : s.nextRecord c = s.ple.deferralQ.find? (s.newerThan c.pos) := by
  unfold State.nextRecord State.newerThan
  cases c.pos <;> rfl

/-- Records a scan has still to judge: those newer than its position. -/
def State.toJudge (s : State) (c : Scan) : Nat := (s.ple.deferralQ.filter (s.newerThan c.pos)).length

/-- A bound of the steps left, from the engine's marks: whether an operation is present, the records its scan has still to
judge, the two re-examination marks, and the length of the deferral queue. -/
def stepsLeft (op : Bool) (scan : Option Nat) (rex rescan : Bool) (q : Nat) : Nat :=
  if op then 0
  else
    match scan with
    | some n => 2 + n + (if rex || rescan then q + 3 else 0)
    | none => if rex then q + 4 + (if rescan then q + 3 else 0) else 1

/-- A bound of the engine's own steps from a state. -/
def State.engineMeasure (s : State) : Nat :=
  stepsLeft s.ple.op.isSome (s.ple.scan.map s.toJudge) s.ple.rexPending s.ple.rescan s.ple.deferralQ.length

theorem toJudge_le (s : State) (c : Scan) : s.toJudge c ≤ s.ple.deferralQ.length := List.length_filter_le _ _

/-- A filter that is no weaker, and drops an element the other keeps, is shorter. -/
theorem filter_length_lt {α : Type} (p q : α → Bool) (l : List α) (a : α) (ha : a ∈ l) (hp : p a = true) (hq : q a = false)
    (h : ∀ b, q b = true → p b = true) : (l.filter q).length < (l.filter p).length := by
  induction l with
  | nil => cases ha
  | cons b rest ih =>
    have le : ∀ l : List α, (l.filter q).length ≤ (l.filter p).length := by
      intro l
      induction l with
      | nil => simp
      | cons x xs ih => by_cases hx : q x = true
                        · simp [hx, h x hx, ih]
                        · by_cases hy : p x = true <;> simp [hx, hy] <;> omega
    rcases List.mem_cons.mp ha with rfl | hm
    · have := le rest
      simp [hp, hq]; omega
    · have := ih hm
      by_cases hx : q b = true
      · simp [hx, h b hx]; omega
      · by_cases hy : p b = true <;> simp [hx, hy] <;> omega

/-- Once the record found next is judged, fewer remain. -/
theorem toJudge_lt (s : State) (c k : Scan) (r : DeferralRec) (h : s.nextRecord c = some r) (hk : k.pos = some r.seq) :
    s.toJudge k < s.toJudge c := by
  rw [nextRecord_eq] at h
  have hm := List.mem_of_find?_eq_some h
  have hp := List.find?_some h
  unfold State.toJudge
  refine filter_length_lt _ _ _ r hm hp (by simp [hk, State.newerThan, State.deferralOrder]) ?_
  intro b hb
  cases hc : c.pos with
  | none => rfl
  | some q =>
    simp only [hk, hc, State.newerThan, decide_eq_true_eq] at hb hp ⊢
    exact Nat.lt_trans hp hb

@[simp] theorem Scan.block_pos (c : Scan) (cls : Cls) : (c.block cls).pos = c.pos := by
  unfold Scan.block; split <;> rfl

/-- Records left once one has gone from the queue. -/
theorem toJudge_removeRecord (s : State) (c : Scan) (i : Nat) : (removeRecord s i).toJudge c ≤ s.toJudge c := by
  show ((s.ple.deferralQ.filter _).filter (s.newerThan c.pos)).length ≤ _
  exact List.Sublist.length_le (List.Sublist.filter _ List.filter_sublist)

/-- Every step of a scan comes nearer its end. -/
theorem scanStep_measure (s : State) (c : Scan) (p : Path) (ho : s.ple.op = none) (hs : s.ple.scan = some c) :
    (scanStep s c p).engineMeasure < s.engineMeasure := by
  have before : s.engineMeasure =
      stepsLeft false (some (s.toJudge c)) s.ple.rexPending s.ple.rescan s.ple.deferralQ.length := by
    simp [State.engineMeasure, ho, hs]
  have keep : ∀ (r : DeferralRec) (k : Scan), s.nextRecord c = some r → k.pos = some r.seq →
      ({ s with ple.scan := some k } : State).engineMeasure < s.engineMeasure := by
    intro r k h hk
    have l := toJudge_lt s c k r h hk
    have e : ({ s with ple.scan := some k } : State).engineMeasure =
        stepsLeft s.ple.op.isSome (some (s.toJudge k)) s.ple.rexPending s.ple.rescan s.ple.deferralQ.length := rfl
    rw [before, e, ho]
    simp only [stepsLeft, Option.isSome_none, Bool.false_eq_true, if_false]
    omega
  unfold scanStep
  split
  · have e : ∀ b : Bool, ({ s with ple.scan := none, ple.rexPending := b, ple.rescan := false } : State).engineMeasure =
        stepsLeft s.ple.op.isSome none b false s.ple.deferralQ.length := fun _ => rfl
    rw [before, e, ho]
    simp only [stepsLeft, Option.isSome_none, Bool.false_eq_true, if_false]
    split <;> omega
  · rename_i r h
    simp only
    split
    · exact keep r _ h (by simp)
    · split
      · have a := toJudge_removeRecord s { c with pos := some r.seq } r.slot
        have b := toJudge_lt s c { c with pos := some r.seq } r h rfl
        have n : (removeRecord s r.slot).ple.deferralQ.length ≤ s.ple.deferralQ.length := List.length_filter_le _ _
        have e : (skipEntry (removeRecord { s with ple.scan := some { c with pos := some r.seq } } r.slot) r.slot
              8).engineMeasure =
            stepsLeft s.ple.op.isSome (some ((removeRecord s r.slot).toJudge { c with pos := some r.seq }))
              s.ple.rexPending s.ple.rescan (removeRecord s r.slot).ple.deferralQ.length := rfl
        rw [before, e, ho]
        simp only [stepsLeft, Option.isSome_none, Bool.false_eq_true, if_false]
        split <;> omega
      · exact keep r _ h (by simp)
      · split
        · exact keep r _ h (by simp)
        · have e : (beginOp (removeRecord { s with ple.scan := some { c with pos := some r.seq } } r.slot) r.slot .release
              p).engineMeasure = 0 := rfl
          rw [before, e]
          simp only [stepsLeft, Bool.false_eq_true, if_false]
          omega

/-- Every step of the engine comes nearer its end. -/
theorem engineStep_measure (s t : State) (h : engineStep s = some t) : t.engineMeasure < s.engineMeasure := by
  unfold engineStep at h
  split at h
  · rename_i ho
    have begun : ∀ (u : State) (i : Nat) (p : Path), s.ple.scan = none → s.ple.rexPending = false →
        (beginOp u i .placement p).engineMeasure < s.engineMeasure := by
      intro u i p hs hr
      have e : (beginOp u i .placement p).engineMeasure = 0 := rfl
      rw [e]
      simp [State.engineMeasure, stepsLeft, ho, hs, hr]
    split at h
    · rename_i c hs
      injection h with h; subst h
      exact scanStep_measure s c _ ho hs
    · rename_i hs
      split at h
      · rename_i hr
        injection h with h; subst h
        have l := toJudge_le s ⟨[], none⟩
        have e : ({ s with ple.rexPending := false, ple.scan := some ⟨[], none⟩ } : State).engineMeasure =
            stepsLeft s.ple.op.isSome (some (s.toJudge ⟨[], none⟩)) false s.ple.rescan s.ple.deferralQ.length := rfl
        rw [e]
        simp only [State.engineMeasure, stepsLeft, ho, hs, hr, Option.isSome_none, Option.map_none, Bool.false_eq_true,
          if_false, if_true, Bool.false_or]
        omega
      · rename_i hr
        have hr : s.ple.rexPending = false := by simpa using hr
        split at h
        · split at h
          · injection h with h; subst h; exact begun _ _ _ hs hr
          · split at h
            · exact absurd h (by simp)
            · injection h with h; subst h; exact begun _ _ _ hs hr
        · injection h with h; subst h; exact begun _ _ _ hs hr
        · exact absurd h (by simp)
  · exact absurd h (by simp)

/-- Enough fuel brings the engine to an operation or to idleness. -/
theorem runEngine_rest (n : Nat) (s : State) (h : s.engineMeasure ≤ n) : engineStep (runEngine n s) = none := by
  induction n generalizing s with
  | zero =>
    cases e : engineStep s with
    | none => exact e
    | some t => exact absurd (engineStep_measure s t e) (by omega)
  | succ n ih =>
    unfold runEngine
    split
    · rename_i e; exact e
    · rename_i t e; exact ih t (by have := engineStep_measure s t e; omega)

theorem engineMeasure_le (s : State) : s.engineMeasure ≤ s.engineFuel := by
  unfold State.engineMeasure State.engineFuel stepsLeft
  split
  · omega
  · cases s.ple.scan with
    | some c =>
      have := toJudge_le s c
      simp only [Option.map_some]
      split <;> omega
    | none =>
      simp only [Option.map_none]
      split
      · split <;> omega
      · omega

/-- The engine works until it has begun an operation or is idle. -/
theorem settleEngine_rest (s : State) : engineStep (settleEngine s) = none := runEngine_rest _ s (engineMeasure_le s)

/-- More fuel than enough changes nothing. -/
theorem runEngine_settled (n : Nat) (s : State) (h : s.engineMeasure ≤ n) : runEngine n s = settleEngine s := by
  have go : ∀ (n m : Nat) (s : State), s.engineMeasure ≤ n → s.engineMeasure ≤ m → runEngine n s = runEngine m s := by
    intro n
    induction n with
    | zero =>
      intro m s h _
      have e : engineStep s = none := runEngine_rest 0 s h
      cases m with
      | zero => rfl
      | succ m => simp [runEngine, e]
    | succ n ih =>
      intro m s h k
      cases e : engineStep s with
      | none => cases m <;> simp [runEngine, e]
      | some t =>
        have d := engineStep_measure s t e
        cases m with
        | zero => omega
        | succ m => simp only [runEngine, e]; exact ih m t (by omega) (by omega)
  exact go n _ s h (engineMeasure_le s)

/-! ### Timers brought in line -/

theorem syncStall_stall (s : State) (p : Path) :
    syncStall s p = setRec s p { s.pathRec p with stall := s.stallInLine p } := by
  have r : s.stallRuns p = true ↔ (s.pcf.part = .active ∧ ((s.pathRec p).health = .trial ∨ (s.pathRec p).health = .up) ∧
      s.sdc.settings.timing.stall ≠ 0 ∧ (s.ring p).producer ≠ (s.ring p).consumer) := by
    simp [State.stallRuns, and_assoc]
  unfold syncStall State.stallInLine
  by_cases h : s.stallRuns p = true
  · simp only [h, if_true, r.mp h, not_false_eq_true, and_self, ne_eq]
    cases e : (s.pathRec p).stall with
    | none => simp
    | some n =>
      simp only [Option.isNone_some, Bool.false_eq_true, if_false, Option.getD_some]
      rw [← e]; exact (setRec_pathRec s p).symm
  · have h2 := mt r.mpr h
    simp only [h, Bool.false_eq_true, if_false, if_neg h2]

/-- The near streak is kept while part work waits, and is 0 else. -/
theorem syncStreak_eq (s : State) : syncStreak s =
    { s with
      fsp.streak :=
        if ((s.pcf.part = .starting ∨ s.pcf.part = .active) ∧ s.fsp.list ≠ []) ∨
            (s.pcf.part = .active ∧ s.fsp.copyReq ≠ none)
        then s.fsp.streak
        else 0 } := by
  have w : s.partWaits = true ↔ (((s.pcf.part = .starting ∨ s.pcf.part = .active) ∧ s.fsp.list ≠ []) ∨
      (s.pcf.part = .active ∧ s.fsp.copyReq ≠ none)) := by
    simp [State.partWaits, State.shortWaits, State.copyWaits, Option.isSome_iff_ne_none]
  unfold syncStreak
  by_cases h : s.partWaits = true
  · rw [if_pos h, if_pos (w.mp h)]
  · rw [if_neg h, if_neg (mt w.mpr h)]

/-- The timers brought in line are written out by `State.timersInLine`. -/
theorem syncTimers_inLine (s : State) : syncTimers s = s.timersInLine := by
  unfold syncTimers
  rw [syncStall_stall s .fibre, syncStall_stall _ .radio, syncStreak_eq]
  rfl

end Sys2Proof.Machine
end

