-- ==== Sys2Proof/Laws/Owners.lean ====
section
/-! SUPPORT. What the owners of the tracked words do, by the effects Safety writes out: meters and the regime, passed path
slots, joined arrivals, and the expiry that is due. -/

namespace Sys2Proof.Machine

/-! ### Meters and the regime -/

theorem addBytes_metered (m : BitVec 64) (n : Nat) : addBytes m n = metered m n := by
  unfold addBytes metered
  split
  · rfl
  · rfl

theorem capReached_iff (cap total : Nat) : capReached cap total = true ↔ cap ≠ 0 ∧ cap * 16777216 ≤ total := by
  unfold capReached; rw [Bool.and_eq_true, decide_eq_true_iff, decide_eq_true_iff]

theorem regimeNow_table (s : State) : s.regimeNow = s.regimeByTable := by
  unfold State.regimeNow State.regimeByTable Umt.total
  simp only [capReached_iff]

theorem prompt_prompted (s : State) : prompt s = s.prompted := by
  unfold prompt State.prompted
  by_cases h : s.pcf.part = .active ∧ s.swc.service.isSome = true ∧ s.ple.claim = .none
  · have h2 : s.pcf.part = .active ∧ s.swc.service ≠ none ∧ s.ple.claim = .none := by
      simpa [Option.isSome_iff_ne_none] using h
    rw [if_pos h, if_pos h2]
    cases e : s.ple.scan with
    | none => simp [e]
    | some c => simp [e]
  · have h2 : ¬ (s.pcf.part = .active ∧ s.swc.service ≠ none ∧ s.ple.claim = .none) := by
      simpa [Option.isSome_iff_ne_none] using h
    rw [if_neg h, if_neg h2]

theorem computeRegime_regimed (s : State) : computeRegime s = s.regimed := by
  unfold computeRegime State.regimed
  rw [regimeNow_table, prompt_prompted]
  rfl

/-! ### Passed path slots (R38) -/

theorem cancelIf_cancelled (s : State) (e : TxEntry) (i : Nat) :
    cancelIf s e i = if e.state = .withdrawing then s.withdrawalCancelled i else s := by
  unfold cancelIf cancelWithdrawal removeWithdrawal State.withdrawalCancelled
  split
  · simp
  · rfl

theorem live_iff (e : TxEntry) :
    e.live = true ↔ (e.state = .placed ∨ e.state = .fetched ∨ e.state = .withdrawing) := by
  simp [TxEntry.live, or_assoc]

theorem completionWord_value (cls : Cls) (st : Status) :
    completionWord cls st = BitVec.ofNat 16 (cls.toNat * 2048 + st.toNat * 128) := by
  revert cls st; decide +kernel

theorem skipEntry_skipped (s : State) (i : Nat) (st : Status) : skipEntry s i st = s.skippedWith i st := by
  unfold skipEntry State.skippedWith requestService requestShort setEntry
  simp only [completionWord_value]
  rfl

/-- A passed slot's effect is written out by `State.passed`. -/
theorem passSlot_passed (s : State) (p : Path) (ps : Nat) : passSlot s p ps = s.passed p ps := by
  unfold passSlot State.passed
  simp only
  cases ((s.ring p).slotAt ps).mapped with
  | none => rfl
  | some i =>
    simp only
    by_cases h : (s.entry i).live = true
    · rw [if_pos h, if_pos ((live_iff _).mp h)]
      rw [cancelIf_cancelled, skipEntry_skipped]
      cases p
      · rfl
      · simp only [if_true, meterTx, computeRegime_regimed, addBytes_metered]
        rfl
    · rw [if_neg h, if_neg (mt (live_iff _).mpr h)]
      rfl

/-! ### Joined arrivals (R81) -/

/-- Added to the most recent record of its path, or nothing where no record names the path. -/
theorem addToLatest_split (p : Path) (n : Nat) (newer : List Batch) (h : ∀ c ∈ newer, c.path ≠ p) (b : Batch)
    (hb : b.path = p) (older : List Batch) :
    addToLatest p n (older ++ b :: newer) = older ++ { b with count := b.count + n } :: newer := by
  have none_any : newer.any (fun c => decide (c.path = p)) = false := by
    simpa using h
  induction older with
  | nil => simp [addToLatest, hb, none_any]
  | cons c rest ih => simp [addToLatest, hb, ih]

theorem addToLatest_none (p : Path) (n : Nat) (l : List Batch) (h : ∀ c ∈ l, c.path ≠ p) : addToLatest p n l = l := by
  induction l with
  | nil => rfl
  | cons c rest ih =>
    simp [addToLatest, h c (by simp), ih (fun d hd => h d (by simp [hd]))]

/-- The arrival list after a batch joined is written out by `joined`. -/
theorem joinArrivals_joined (l : List Batch) (p : Path) (n : Nat) : joinArrivals l p n = joined l p n := by
  have back : l = (l.reverse.dropWhile (fun b => decide (b.path ≠ p))).reverse ++
      (l.reverse.takeWhile (fun b => decide (b.path ≠ p))).reverse := by
    rw [← List.reverse_append, List.takeWhile_append_dropWhile, List.reverse_reverse]
  have out : ∀ c ∈ (l.reverse.takeWhile (fun b => decide (b.path ≠ p))).reverse, c.path ≠ p := by
    intro c hc
    have := List.all_eq_true.mp (List.all_takeWhile (p := fun b : Batch => decide (b.path ≠ p)) (l := l.reverse)) c
      (List.mem_reverse.mp hc)
    simpa using this
  unfold joined
  simp only
  generalize e : l.reverse.dropWhile (fun b => decide (b.path ≠ p)) = d at back
  generalize f : (l.reverse.takeWhile (fun b => decide (b.path ≠ p))).reverse = newer at back out
  cases d with
  | nil =>
    simp only [List.reverse_nil, List.nil_append] at back
    subst back
    unfold joinArrivals
    split
    · rename_i h
      simp only [List.getLast?_eq_none_iff] at h
      simp [h]
    · rename_i tail h
      have ht := out tail (List.mem_of_getLast? h)
      rw [if_neg ht]
      by_cases hl : l.length < 32
      · rw [if_pos (show l.length < Config.maxArrivals from hl), if_pos hl]
      · rw [if_neg (show ¬ l.length < Config.maxArrivals from hl), if_neg hl]
        exact addToLatest_none p n _ out
  | cons b older =>
    have hb : b.path = p := by
      have := List.head?_dropWhile_not (p := fun b : Batch => decide (b.path ≠ p)) (l := l.reverse)
      rw [e] at this
      simpa using this
    simp only [List.reverse_cons, List.append_assoc, List.singleton_append] at back
    unfold joinArrivals
    split
    · rename_i h
      simp only [List.getLast?_eq_none_iff] at h
      rw [back] at h; simp at h
    · rename_i tail h
      have merged : addToLatest p n l = older.reverse ++ { b with count := b.count + n } :: newer := by
        rw [back]; exact addToLatest_split p n newer out b hb older.reverse
      by_cases hn : newer = []
      · have : tail = b := by
          rw [back, hn] at h; simpa using h.symm
        simp [this, hb, hn, merged]
      · have ht : tail.path ≠ p := by
          have h2 : newer.getLast? = some tail := by
            rw [back, List.getLast?_append] at h
            simpa [List.getLast?_cons, hn, List.getLast?_eq_some_getLast hn] using h
          exact out tail (List.mem_of_getLast? h2)
        rw [if_neg ht]
        simp only [hn, false_or]
        by_cases hl : l.length < 32
        · rw [if_pos (show l.length < Config.maxArrivals from hl), if_neg (by omega)]
        · rw [if_neg (show ¬ l.length < Config.maxArrivals from hl), merged, if_pos (by omega)]

/-! ### The expiry that is due (R196, log 4) -/

theorem reached_any (t : Timer) (n : Nat) : Timer.reached t n = t.any (fun k => decide (n ≤ k)) := by cases t <;> rfl

theorem dueIf_find (b : Bool) (c : Instr) (l : List (Bool × Instr)) (r : Option Instr)
    (h : r = (l.find? (·.1)).map (·.2)) : dueIf b c r = (((b, c) :: l).find? (·.1)).map (·.2) := by
  cases b <;> simp [dueIf, List.find?, h]

/-- The expiry that is due is the first of `State.expiries` whose condition holds. -/
theorem due_expiries (s : State) : s.due = (s.expiries.find? (·.1)).map (·.2) := by
  have line : ∀ p, s.confirmDue p = (match (s.pathRec p).line with
      | .falling n => decide (s.sdc.settings.timing.confirm.get p * 1024 ≤ n) | _ => false) := by
    intro p; unfold State.confirmDue; cases (s.pathRec p).line <;> rfl
  have mains : s.mainsDue = (match s.umt.mains with
      | .falling n => decide (s.sdc.settings.radio.mainsConfirm * 1024 ≤ n) | _ => false) := by
    unfold State.mainsDue; cases s.umt.mains <;> rfl
  unfold State.due State.expiries
  simp only [State.settleDue, State.beatDue, State.stallDue, State.attachDue, State.powerOffDue, State.keepDue,
    State.quietDue, State.waitDue, State.refillDue, reached_any, ms, secs, mins, State.activity, State.quietTime, line,
    mains]
  repeat' apply dueIf_find
  rfl

end Sys2Proof.Machine
end

