-- ==== Sys2Proof/Laws/Settings.lean ====
section
/-! SUPPORT. Setting cycles: the fields of a setting address, and the three ways a write or read cycle ends. -/

namespace Sys2Proof.Machine

/-! ### The setting address -/

/-- A bit of a setting address, field by field. -/
theorem settingAddr_bit (g i : BitVec 4) (x : BitVec 8) (k : Nat) :
    (settingAddr g i x).getLsbD k =
      if k < 8 then false else if k < 16 then x.getLsbD (k - 8) else if k < 20 then i.getLsbD (k - 16)
      else g.getLsbD (k - 20) := by
  have h1 : (settingAddr g i x).getLsbD k =
      if k < 8 then (0 : BitVec 8).getLsbD k else (g ++ i ++ x : BitVec (4 + 4 + 8)).getLsbD (k - 8) :=
    BitVec.getLsbD_append
  have h2 : (g ++ i ++ x : BitVec (4 + 4 + 8)).getLsbD (k - 8) =
      if k - 8 < 8 then x.getLsbD (k - 8) else (g ++ i : BitVec (4 + 4)).getLsbD (k - 8 - 8) := BitVec.getLsbD_append
  have h3 : (g ++ i : BitVec (4 + 4)).getLsbD (k - 8 - 8) =
      if k - 8 - 8 < 4 then i.getLsbD (k - 8 - 8) else g.getLsbD (k - 8 - 8 - 4) := BitVec.getLsbD_append
  rw [h1, h2, h3]
  have e1 : k - 8 - 8 = k - 16 := by omega
  have e2 : k - 16 - 4 = k - 20 := by omega
  rw [e1, e2]
  by_cases c1 : k < 8
  · simp [c1]
  · by_cases c2 : k < 16
    · simp [c1, c2, show k - 8 < 8 by omega]
    · by_cases c3 : k < 20
      · simp [c1, c2, c3, show ¬ k - 8 < 8 by omega, show k - 16 < 4 by omega]
      · simp [c1, c2, c3, show ¬ k - 8 < 8 by omega, show ¬ k - 16 < 4 by omega]

@[simp] theorem settingGroup_settingAddr (g i : BitVec 4) (x : BitVec 8) : settingGroup (settingAddr g i x) = g := by
  apply BitVec.eq_of_getLsbD_eq
  intro k hk
  have : 20 + k - 20 = k := by omega
  simp [settingGroup, settingAddr_bit, hk, this, show ¬ 20 + k < 8 by omega, show ¬ 20 + k < 16 by omega, show ¬ 20 + k < 20 by omega]

@[simp] theorem settingItem_settingAddr (g i : BitVec 4) (x : BitVec 8) : settingItem (settingAddr g i x) = i := by
  apply BitVec.eq_of_getLsbD_eq
  intro k hk
  have : 16 + k - 16 = k := by omega
  simp [settingItem, settingAddr_bit, hk, this, show ¬ 16 + k < 8 by omega, show ¬ 16 + k < 16 by omega, show 16 + k < 20 by omega]

@[simp] theorem settingIndex_settingAddr (g i : BitVec 4) (x : BitVec 8) : settingIndex (settingAddr g i x) = x := by
  apply BitVec.eq_of_getLsbD_eq
  intro k hk
  have : 8 + k - 8 = k := by omega
  simp [settingIndex, settingAddr_bit, hk, this, show ¬ 8 + k < 8 by omega, show 8 + k < 16 by omega]

/-! ### A write cycle -/

/-- A refused cycle has the effects of R176 and no other. -/
theorem refuse_effect (s : State) (c : RefusalCause) (tag : Tag) (addr : Addr) (dir : Dir) :
    refuse { s with nsi.near := none } c tag addr dir = s.refusedWith c tag addr dir := by
  have h : (s.pcf.first.isNone && mayBeFirst .notice s.pcf.part) = decide (s.pcf.first = none) := by
    cases s.pcf.first <;> simp [mayBeFirst]
  cases dir <;>
    simp [refuse, takeFault, raiseAlert, State.refusedWith, State.faulted, causeClass, classAlert, alertBit,
      FaultCounts.bump, satInc, settingGroup, settingItem, settingIndex, h]

/-- A write the decoder refuses. -/
theorem writeCycle_judged (s : State) (tag : Tag) (addr : Addr) (v : Word) (owner : State → Option RefusalCause)
    (take : State → State) (c : RefusalCause) (h : s.judges .write tag addr)
    (j : judgeWrite { s with nsi.near := none } tag addr v = some c) :
    writeCycle s tag addr v owner take = s.refusedWith c tag addr .write := by
  have e : s.settle.isSome = false := by rw [h.2]; rfl
  rw [← refuse_effect s c tag addr .write]
  unfold writeCycle
  simp only at j
  simp only [h.1, if_true, e, Bool.false_eq_true, if_false, j]

/-- A write its owner refuses. -/
theorem writeCycle_owner (s : State) (tag : Tag) (addr : Addr) (v : Word) (owner : State → Option RefusalCause)
    (take : State → State) (c : RefusalCause) (h : s.judges .write tag addr)
    (j : judgeWrite { s with nsi.near := none } tag addr v = none) (o : owner { s with nsi.near := none } = some c) :
    writeCycle s tag addr v owner take = s.refusedWith c tag addr .write := by
  have e : s.settle.isSome = false := by rw [h.2]; rfl
  rw [← refuse_effect s c tag addr .write]
  unfold writeCycle
  simp only at j o
  simp only [h.1, if_true, e, Bool.false_eq_true, if_false, j, o]

/-- A write that is taken. -/
theorem writeCycle_taken (s : State) (tag : Tag) (addr : Addr) (v : Word) (owner : State → Option RefusalCause)
    (take : State → State) (h : s.judges .write tag addr)
    (j : judgeWrite { s with nsi.near := none } tag addr v = none) (o : owner { s with nsi.near := none } = none) :
    writeCycle s tag addr v owner take = take { s with nsi.near := none } := by
  have e : s.settle.isSome = false := by rw [h.2]; rfl
  unfold writeCycle
  simp only at j o
  simp only [h.1, if_true, e, Bool.false_eq_true, if_false, j, o]

/-- A supervisor's command in its range passes the decoder's tests. -/
theorem judgeWrite_command (s : State) (item : BitVec 4) (x : BitVec 8) (v : Word) (hi : item.toNat ≤ 10)
    (hv : commandInRange item.toNat v.toNat = true) : judgeWrite s .supervisor (settingAddr 6 item x) v = none := by
  simp [judgeWrite, writeDefined, configOnly, classOneForbids, hi, hv]

/-! ### A read cycle -/

/-- A read the decoder refuses. -/
theorem readCycle_refused (s : State) (tag : Tag) (addr : Addr) (c : RefusalCause) (h : s.judges .read tag addr)
    (j : judgeRead tag addr = some c) : readCycle s tag addr = s.refusedWith c tag addr .read := by
  have e : s.settle.isSome = false := by rw [h.2]; rfl
  rw [← refuse_effect s c tag addr .read]
  unfold readCycle
  simp only [h.1, if_true, e, Bool.false_eq_true, if_false, j]

/-- A read that is answered. -/
theorem readCycle_answered (s : State) (tag : Tag) (addr : Addr) (h : s.judges .read tag addr)
    (j : judgeRead tag addr = none) :
    readCycle s tag addr =
      { takeReadEffect { s with nsi.near := none } (settingGroup addr).toNat (settingItem addr).toNat
          (settingIndex addr).toNat with
        nsi.dataOut := readWord { s with nsi.near := none } (settingGroup addr).toNat (settingItem addr).toNat
          (settingIndex addr).toNat } := by
  have e : s.settle.isSome = false := by rw [h.2]; rfl
  unfold readCycle
  simp only [h.1, if_true, e, Bool.false_eq_true, if_false, j]

end Sys2Proof.Machine
end

