-- ==== Sys2Proof/Laws/Reads.lean ====
section
/-! SUPPORT. What a taken setting read answers and latches, by the tables Safety writes out. -/

namespace Sys2Proof.Machine

/-! ### A claim about the indices of a table, from its last entry down -/

theorem upTo_zero {P : Nat → Prop} (h : P 0) : ∀ k, k ≤ 0 → P k := fun _ hk => Nat.le_zero.1 hk ▸ h

theorem upTo_succ {P : Nat → Prop} {n : Nat} (h : P (n + 1)) (below : ∀ k, k ≤ n → P k) : ∀ k, k ≤ n + 1 → P k := by
  intro k hk
  rcases Nat.lt_or_ge n k with hlt | hge
  · exact Nat.le_antisymm hk hlt ▸ h
  · exact below k hge

/-! ### Words and codes -/

theorem lowWord_toNat (v : BitVec 32) : lowWord v = BitVec.ofNat 16 v.toNat := by
  apply BitVec.eq_of_toNat_eq; simp [lowWord]

theorem highWord_toNat (v : BitVec 32) : highWord v = BitVec.ofNat 16 (v.toNat / 65536) := by
  apply BitVec.eq_of_toNat_eq; simp [highWord, Nat.shiftRight_eq_div_pow]

theorem word64_toNat (v : BitVec 64) (k : Nat) : word64 v k = BitVec.ofNat 16 (v.toNat / 65536 ^ k) := by
  apply BitVec.eq_of_toNat_eq
  simp [word64, Nat.shiftRight_eq_div_pow, Nat.pow_mul]

theorem pathCode_idx (p : Option Path) : pathCode p = BitVec.ofNat 16 ([none, some .fibre, some .radio].idxOf p) := by
  rcases p with _ | _ | _ <;> rfl

theorem actionCode_idx (a : Action) : actionCode a = [Action.pass, .defer, .skip].idxOf a := by cases a <;> rfl

theorem flagWord_nat (b : Bool) : flagWord b = BitVec.ofNat 16 (if b then 1 else 0) := by cases b <;> rfl

/-- A path record's fields as the table of R183 lists them. -/
theorem recordWord_list (r : PathRecord) (x : Nat) (h : x ≤ 6) :
    recordWord r x = BitVec.ofNat 16
      ([[Health.off, .down, .trial, .up, .failed].idxOf r.health, r.grade,
        [DownCause.none, .stall, .silence, .light, .detach, .powerCycle, .terminalIndex].idxOf r.cause, r.trial, r.silence,
        r.downs, r.trials].getD x 0) := by
  obtain ⟨health, grade, cause, trial, silence, stall, line, mark, downs, trials⟩ := r
  revert x
  iterate 4 refine upTo_succ rfl ?_
  refine upTo_succ ?_ ?_
  · cases cause <;> rfl
  refine upTo_succ rfl ?_
  refine upTo_zero ?_
  · cases health <;> rfl

/-- A fault record's fields as the table of R185 lists them. -/
theorem recordField_list (r : Option FaultRec) (x : Nat) (h : x ≤ 5) :
    recordField r x = BitVec.ofNat 16
      ((match r with
        | none => [0, 0, 0, 0xFFFF, 0, 0]
        | some f =>
          [[FaultClass.notice, .path, .transfer, .integrity].idxOf f.cls + 1,
            [FaultCause.lateWrite, .postOverrun, .reclaimOverrun, .releaseOverrun, .guardedWrite, .settingRefused,
              .strayCompletion, .invalidDescriptor, .deferralFull, .pathDown, .terminalIndex, .attachTimeout, .radioFailed,
              .flapLimit, .noPath, .farTimeout, .farTimeoutRepeated, .timeoutInSwitch].idxOf f.cause + 1,
            [none, some Path.fibre, some .radio].idxOf f.path, f.slot.getD 0xFFFF, f.time.toNat,
            f.time.toNat / 65536]).getD x 0) := by
  rcases r with _ | ⟨cls, cause, path, slot, time⟩
  · revert x
    iterate 5 refine upTo_succ rfl ?_
    exact upTo_zero rfl
  · revert x
    refine upTo_succ (highWord_toNat time) ?_
    refine upTo_succ (lowWord_toNat time) ?_
    refine upTo_succ ?_ ?_
    · cases slot <;> rfl
    refine upTo_succ (pathCode_idx path) ?_
    refine upTo_succ ?_ ?_
    · cases cause <;> rfl
    refine upTo_zero ?_
    · cases cls <;> rfl

/-- The state codes of R20, in their order. -/
theorem txStateCode_idx (st : TxState) :
    [TxState.free, .posted, .placing, .placed, .fetched, .withdrawing, .deferred, .done, .skipped].idxOf st =
      txStateCode st := by cases st <;> rfl

/-- An occupancy count is a count over the table's states (R19). -/
theorem occupancyCount_list (s : State) (x : Nat) (h : x ≤ 8) :
    s.occupancyCount x = ((List.range 9).map (fun k => (s.tsm.entries.filter (fun e => decide
      ([TxState.free, .posted, .placing, .placed, .fetched, .withdrawing, .deferred, .done, .skipped].idxOf e.state = k))).length)).getD
        x 0 := by
  simp only [txStateCode_idx]
  revert x
  iterate 8 refine upTo_succ rfl ?_
  exact upTo_zero rfl

/-! ### Groups -/

/-- A STATUS read (R183, R184). -/
theorem statusWord_reading (s : State) (i x : Nat)
    (h : i ≤ 2 ∨ (i = 3 ∧ x ≤ 6) ∨ (i = 4 ∧ x ≤ 6) ∨ (i = 5 ∧ x ≤ 8) ∨ i = 6 ∨ i = 7 ∨ (i = 8 ∧ x ≤ 8) ∨
      i = 9 ∨ i = 10 ∨ i = 11 ∨ (i = 12 ∧ x ≤ 1) ∨ (i = 13 ∧ x ≤ 5)) :
    statusWord s i x = BitVec.ofNat 16 (s.reading 8 i x) := by
  rcases h with h | ⟨rfl, h⟩ | ⟨rfl, h⟩ | ⟨rfl, h⟩ | rfl | rfl | ⟨rfl, h⟩ | rfl | rfl | rfl | ⟨rfl, h⟩ | ⟨rfl, h⟩
  · revert i
    refine upTo_succ ?_ (upTo_succ rfl (upTo_zero rfl))
    show partCode _ = BitVec.ofNat 16 (List.idxOf s.pcf.part _)
    cases s.pcf.part <;> rfl
  · revert x
    iterate 2 refine upTo_succ rfl ?_
    iterate 2 refine upTo_succ (flagWord_nat _) ?_
    refine upTo_succ (pathCode_idx _) ?_
    refine upTo_succ ?_ ?_
    · show switchCode _ = BitVec.ofNat 16 (List.idxOf s.swc.state _)
      cases s.swc.state <;> rfl
    exact upTo_zero (pathCode_idx _)
  · exact recordWord_list _ x h
  · revert x
    refine upTo_succ rfl ?_
    refine upTo_succ ?_ ?_
    · show phaseCode _ = BitVec.ofNat 16 (List.idxOf s.pmn.power.phase _)
      cases s.pmn.power.phase <;> rfl
    refine upTo_succ (recordWord_list _ 6 (by omega)) ?_
    refine upTo_succ (recordWord_list _ 5 (by omega)) ?_
    refine upTo_succ (recordWord_list _ 4 (by omega)) ?_
    refine upTo_succ (recordWord_list _ 3 (by omega)) ?_
    refine upTo_succ (recordWord_list _ 2 (by omega)) ?_
    refine upTo_succ (recordWord_list _ 1 (by omega)) ?_
    exact upTo_zero (recordWord_list _ 0 (by omega))
  · show regimeCode _ = BitVec.ofNat 16 (List.idxOf s.umt.regime _); cases s.umt.regime <;> rfl
  · show s.pcf.pending.setWidth 16 = BitVec.ofNat 16 s.pcf.pending.toNat
    apply BitVec.eq_of_toNat_eq; simp
  · exact congrArg (BitVec.ofNat 16) (occupancyCount_list s x h)
  · rfl
  · rfl
  · rfl
  · revert x
    exact upTo_succ (highWord_toNat s.sdc.uptimeHold) (upTo_zero (lowWord_toNat s.clock.uptime))
  · revert x
    refine upTo_succ ?_ ?_
    · show (if s.sdc.refusal.dir = .write then (1 : Word) else 0) = BitVec.ofNat 16 (List.idxOf s.sdc.refusal.dir _)
      cases s.sdc.refusal.dir <;> rfl
    refine upTo_succ ?_ ?_
    · show wordOf (tagCode _) = BitVec.ofNat 16 (List.idxOf s.sdc.refusal.tag _)
      cases s.sdc.refusal.tag <;> rfl
    refine upTo_succ ?_ ?_
    · show s.sdc.refusal.index.setWidth 16 = BitVec.ofNat 16 s.sdc.refusal.index.toNat
      apply BitVec.eq_of_toNat_eq; simp
    refine upTo_succ ?_ ?_
    · show s.sdc.refusal.item.setWidth 16 = BitVec.ofNat 16 s.sdc.refusal.item.toNat
      apply BitVec.eq_of_toNat_eq; simp
    refine upTo_succ ?_ ?_
    · show s.sdc.refusal.group.setWidth 16 = BitVec.ofNat 16 s.sdc.refusal.group.toNat
      apply BitVec.eq_of_toNat_eq; simp
    refine upTo_zero ?_
    · show refusalCode _ = BitVec.ofNat 16 (List.idxOf s.sdc.refusal.cause _)
      cases s.sdc.refusal.cause <;> rfl

/-- A METER READS read (R143, R144, R185). -/
theorem meterWord_reading (s : State) (i x : Nat) (h : (i = 0 ∧ x ≤ 7) ∨ (i = 1 ∧ x ≤ 1)) :
    meterWord s i x = BitVec.ofNat 16 (s.reading 9 i x) := by
  rcases h with ⟨rfl, h⟩ | ⟨rfl, h⟩
  · revert x
    iterate 4 refine upTo_succ (word64_toNat s.umt.holdRx _) ?_
    iterate 3 refine upTo_succ (word64_toNat s.umt.holdTx _) ?_
    exact upTo_zero ((word64_toNat _ 0).trans (by simp [State.reading]))
  · revert x
    refine upTo_succ (highWord_toNat s.umt.latch) (upTo_zero ?_)
    · show lowWord s.umt.summary = BitVec.ofNat 16 (if (s.umt.tx.toNat + s.umt.rx.toNat) / 1048576 ≤ 0xFFFFFFFF then _ else _)
      rw [lowWord_toNat]
      unfold Umt.summary Umt.total
      split
      · rename_i hm
        rw [BitVec.toNat_ofNat, Nat.mod_eq_of_lt (by omega)]
      · rfl

/-- A FAULT READS read (R185). -/
theorem faultWord_reading (s : State) (i x : Nat) (h : (i = 0 ∧ x ≤ 5) ∨ (i = 1 ∧ x ≤ 5) ∨ (i = 2 ∧ 1 ≤ x ∧ x ≤ 4)) :
    faultWord s i x = BitVec.ofNat 16 (s.reading 10 i x) := by
  rcases h with ⟨rfl, h⟩ | ⟨rfl, h⟩ | ⟨rfl, h1, h⟩
  · revert x
    refine upTo_succ (recordField_list _ 5 (by omega)) ?_
    refine upTo_succ (recordField_list _ 4 (by omega)) ?_
    refine upTo_succ (recordField_list _ 3 (by omega)) ?_
    refine upTo_succ (recordField_list _ 2 (by omega)) ?_
    refine upTo_succ (recordField_list _ 1 (by omega)) ?_
    exact upTo_zero (recordField_list _ 0 (by omega))
  · revert x
    refine upTo_succ (recordField_list _ 5 (by omega)) ?_
    refine upTo_succ (recordField_list _ 4 (by omega)) ?_
    refine upTo_succ (recordField_list _ 3 (by omega)) ?_
    refine upTo_succ (recordField_list _ 2 (by omega)) ?_
    refine upTo_succ (recordField_list _ 1 (by omega)) ?_
    exact upTo_zero (recordField_list _ 0 (by omega))
  · obtain ⟨k, rfl⟩ : ∃ k, x = k + 1 := ⟨x - 1, by omega⟩
    have hk : k ≤ 3 := by omega
    clear h1 h
    revert k
    iterate 3 refine upTo_succ rfl ?_
    exact upTo_zero rfl

/-- The summary a read latches (R144). -/
theorem summary_reading (s : State) : s.umt.summary = BitVec.ofNat 32 (s.reading 9 1 0) := by
  show s.umt.summary = BitVec.ofNat 32 (if (s.umt.tx.toNat + s.umt.rx.toNat) / 1048576 ≤ 0xFFFFFFFF then _ else _)
  unfold Umt.summary Umt.total
  split <;> rfl

/-- A read of a setting or a COMMAND item (R182). -/
theorem settingWord_reading (s : State) (g i x : Nat) (h : definedWrite g i x) (hi : i ≤ 15) :
    readWord s g i x = BitVec.ofNat 16 (s.reading g i x) := by
  have w (v : Word) : v = BitVec.ofNat 16 v.toNat := by simp
  rcases h with ⟨rfl, h⟩ | ⟨rfl, h⟩ | ⟨rfl, h, -⟩ | rfl | ⟨rfl, h⟩ | ⟨rfl, h⟩ | ⟨rfl, h⟩
  · clear hi
    revert i
    iterate 2 refine upTo_succ rfl ?_
    exact upTo_zero rfl
  · clear hi
    revert i
    iterate 12 first | refine upTo_succ rfl ?_ | refine upTo_succ (w _) ?_
    exact upTo_zero (w _)
  · clear hi
    revert i
    refine upTo_succ (flagWord_nat _) ?_
    iterate 2 refine upTo_succ (w _) ?_
    iterate 3 refine upTo_succ (congrArg wordOf (actionCode_idx _)) ?_
    exact upTo_zero (congrArg wordOf (actionCode_idx _))
  · revert i
    iterate 15 refine upTo_succ rfl ?_
    exact upTo_zero rfl
  · clear hi
    revert i
    iterate 5 refine upTo_succ rfl ?_
    refine upTo_zero ?_
    show (if s.sdc.settings.radio.standby = .onDemand then (1 : Word) else 0) =
      BitVec.ofNat 16 (List.idxOf s.sdc.settings.radio.standby _)
    cases s.sdc.settings.radio.standby <;> rfl
  · have h6 : i ≤ 6 := by omega
    clear h hi
    revert i
    iterate 6 refine upTo_succ rfl ?_
    exact upTo_zero rfl
  · clear hi
    revert i
    refine upTo_succ ?_ ?_
    · show s.pcf.mask.setWidth 16 = BitVec.ofNat 16 s.pcf.mask.toNat
      apply BitVec.eq_of_toNat_eq; simp
    iterate 4 refine upTo_succ rfl ?_
    refine upTo_succ ?_ ?_
    · show (if s.swc.mode = .manual then (1 : Word) else 0) = BitVec.ofNat 16 (List.idxOf s.swc.mode _)
      cases s.swc.mode <;> rfl
    refine upTo_succ rfl (upTo_succ (pathCode_idx _) ?_)
    iterate 2 refine upTo_succ rfl ?_
    exact upTo_zero rfl

/-- The answer of a read is the one the tables give. -/
theorem readWord_reading (s : State) (g i x : Nat) (h : definedRead g i x) (hi : i ≤ 15) :
    readWord s g i x = BitVec.ofNat 16 (s.reading g i x) := by
  rcases h with h | ⟨rfl, h⟩ | ⟨rfl, h⟩ | ⟨rfl, h⟩
  · exact settingWord_reading s g i x h hi
  · exact statusWord_reading s i x h
  · exact meterWord_reading s i x h
  · exact faultWord_reading s i x h

/-- What a read latches is what the latching reads latch, and nothing else. -/
theorem takeReadEffect_latched (s : State) (g i x : Nat) : takeReadEffect s g i x = s.latched g i x := by
  unfold takeReadEffect State.latched
  rw [← summary_reading]
  split
  case h_7 a b c d e f =>
    rw [if_neg (fun h => a h.1 h.2), if_neg (fun h => b h.1 h.2.1), if_neg (fun h => c h.1 h.2.1),
      if_neg (fun h => d h.1 h.2.1), if_neg (fun h => e h.1 h.2.1), if_neg (fun h => f h.1 h.2.1)]
  all_goals simp

end Sys2Proof.Machine
end

