-- ==== Sys2Proof/Laws/Window.lean ====
section
/-! SUPPORT. The near word at the far port: what is presented, which run it goes on with, and how it transfers. -/

namespace Sys2Proof.Machine

/-- The word presented, by the conditions of R159. -/
theorem presented_iff (s : State) (fa : Addr) : s.presented = some fa ↔ ∃ c, s.presents c fa := by
  unfold State.presented
  constructor
  · intro h
    split at h
    · cases h
    · rename_i c hn
      split at h
      · exact ⟨c, hn, ‹c.cfgn = true ∧ c.dead = false›.1, ‹c.cfgn = true ∧ c.dead = false›.2, h⟩
      · cases h
  · rintro ⟨c, hn, h1, h2, h⟩
    simp only [hn, h1, h2, and_self, if_true]
    exact h

/-- A near cycle presents one word at a time. -/
theorem presented_of_presents {s : State} {c : NearCycle} {fa : Addr} (h : s.presents c fa) : s.presented = some fa :=
  (presented_iff s fa).2 ⟨c, h⟩

/-- A run goes on with the next address up, and no other (R162). -/
theorem followsRun_iff (last fa : Addr) : followsRun last fa = true ↔ fa.toNat = last.toNat + 1 := decide_eq_true_iff

/-- A near word's grant before part work, by the table of R165. -/
theorem nearWins_iff (s : State) :
    s.nearWins = true ↔
      ¬ ((s.pcf.part = .starting ∨ s.pcf.part = .active) ∧ s.fsp.reissue ≠ none) ∧
        ((¬ ((s.pcf.part = .starting ∨ s.pcf.part = .active) ∧ s.fsp.list ≠ []) ∧
          ¬ (s.pcf.part = .active ∧ s.fsp.copyReq ≠ none)) ∨ s.fsp.streak < 4) := by
  cases hr : s.fsp.reissue <;> cases hl : s.fsp.list <;> cases hc : s.fsp.copyReq <;> cases hp : s.pcf.part <;>
    simp [State.nearWins, State.reissueWaits, State.partWaits, State.shortWaits, State.copyWaits, Config.maxStreak, hr, hl,
      hc, hp] <;>
    exact decide_eq_true_iff

/-- A transfer, for the near cycle that stands in the state (R156, R162). -/
theorem transferWord_transferred (s : State) (c n : NearCycle) (fa : Addr) (v : Word) (hn : s.nsi.near = some n)
    (hb : n.burst = c.burst) (hp : n.pos = c.pos) : transferWord s c.dir fa v = s.transferred c fa v := by
  have hl : s.cycleLength n = s.cycleLength c := by unfold State.cycleLength; rw [hb]
  have hw (u : State) : (if c.dir = .read then { s with nsi.dataOut := v } else s) = u → finishWord u =
      { s with
        nsi.near := if s.cycleLength c ≤ c.pos + 1 then none else s.nsi.near.map (fun n => { n with pos := c.pos + 1, data := none })
        nsi.dataOut := if c.dir = .read then v else s.nsi.dataOut } := by
    intro hu
    have hun : u.nsi.near = some n := by rw [← hu]; split <;> exact hn
    have hul : u.cycleLength n = s.cycleLength c := by rw [← hl, ← hu]; split <;> rfl
    unfold finishWord
    simp only [hun, hul, hn, Option.map_some, hp]
    rw [← hu]
    split <;> split <;> rfl
  unfold transferWord State.transferred
  simp only [hw _ rfl]
  unfold State.runGoesOn
  congr 3
  cases State.presented _ <;> simp [followsRun]

/-- A grant of a near word: taken in the one event, then in transfer or transferred (R159). -/
theorem grantWord_taken (s : State) (c : NearCycle) (fa : Addr) (v : Word) (fhold : Bool) :
    grantWord s c (s.wordAddr c c.pos) fa v fhold =
      if fhold then { s.wordTaken c fa v with fsp.port := .nearHeld ⟨fa, c.dir, c.tag⟩ }
      else transferWord (s.wordTaken c fa v) c.dir fa v := rfl

/-- A wait changes the data word a write presents, and nothing else (R160). -/
theorem waitWord_offered (s : State) (c : NearCycle) (v : Word) (h : s.nsi.near = some c) :
    waitWord s c v = s.offered v := by
  unfold waitWord State.offered
  rw [h, Option.map_some]
  split
  · rfl
  · rw [← h]

/-- FAR_GRANT has a near word to grant: one presented, a write with its data word (R165). -/
theorem nearReady_iff (s : State) : s.nearReady = true ↔ s.nearWaits := by
  unfold State.nearReady State.nearWaits
  constructor
  · intro h
    split at h
    · cases h
    · rename_i c hn
      rw [Bool.and_eq_true, Option.isSome_iff_exists] at h
      obtain ⟨⟨fa, hf⟩, hr⟩ := h
      obtain ⟨d, hd⟩ := (presented_iff s fa).1 hf
      obtain rfl : c = d := Option.some.inj (hn.symm.trans hd.1)
      refine ⟨c, fa, hd, ?_⟩
      cases hdata : c.data <;> simp_all
  · rintro ⟨c, fa, hp, hr⟩
    simp only [hp.1, presented_of_presents hp, Option.isSome_some, Bool.true_and]
    cases hdata : c.data <;> simp_all

end Sys2Proof.Machine
end

