-- ==== Sys2Proof/Tests/Slice0.lean ====
section
/-! SUPPORT. The model's own tests: ill-formed commands, one step of commands from the spec's examples, and, for each
statement with hypotheses, a state and operands that meet them. -/

namespace Sys2Proof.Tests

set_option Elab.async false

open Sys2Proof Sys2Proof.Machine

/-! ### Ill-formed commands are refused by the check -/

theorem test_wf_settingWrite_of_own_row : (Instr.settingWrite .supervisor (settingAddr 6 0 0) 0).wf = false := by decide

theorem test_wf_settingWrite_standby : (Instr.settingWrite .supervisor (settingAddr 4 0 3) 1).wf = false := by decide

theorem test_wf_settingWrite_preset : (Instr.settingWrite .supervisor (settingAddr 5 6 7) 1).wf = false := by decide

theorem test_wf_read_of_own_row : (Instr.refusedSettingRead .user (settingAddr 8 7 0)).wf = false := by decide

theorem test_wf_read_latching : (Instr.refusedSettingRead .user (settingAddr 9 0 0)).wf = false := by decide

theorem test_wf_plain : (Instr.settingWrite .user (settingAddr 3 0 0) 300).wf = true ∧
    (Instr.refusedSettingRead .user (settingAddr 9 0 1)).wf = true ∧ Instr.farGrant.wf = true := by decide

/-! ### Small states -/

/-- Seven disjoint regions with the smallest rings. -/
def smallGeometry : Geometry where
  svcTx := ⟨⟨0x100, true⟩, 0⟩
  svcRx := ⟨⟨0x110, true⟩, 0⟩
  header := ⟨0x120, true⟩
  tx := ⟨⟨⟨0x130, true⟩, 0⟩, ⟨⟨0x140, true⟩, 0⟩⟩
  rx := ⟨⟨⟨0x150, true⟩, 0⟩, ⟨⟨0x160, true⟩, 0⟩⟩

/-- The part in a part state, the settle over, with empty tables. -/
def idle (p : PartState) : State :=
  { State.reset with
    settle := none
    pcf.part := p
    sdc.settings.geometry := smallGeometry
    tsm := emptyTsm 32
    ple := emptyPle zeroDescriptor 16 16
    rmu := emptyRmu 32 }

/-- ACTIVE with both paths UP and a path serving. -/
def live (p : Path) : State :=
  { idle .active with
    swc.service := some p
    pmn.recs.fibre.health := .up
    pmn.recs.radio.health := .up
    pmn.power.attach := none }

/-- A live state with entry 0 posted and in an operation, class 4 and length 1500 cached. -/
def operating (k : OpKind) (ph : OpPhase) : State :=
  { live .radio with
    tsm := ⟨⟨.placing, some 0, some 4, some 1500, some .radio, none, none, none⟩ :: List.replicate 31 freeEntry, 1, 0, 1⟩
    ple.op := some ⟨0, k, ph, .radio⟩ }

/-- A live state whose entry 0 is in slot 0 of the fibre ring. -/
def placed (st : TxState) : State :=
  { live .fibre with
    tsm := ⟨⟨st, some 0, some 4, some 1500, some .fibre, some 0, none, none⟩ :: List.replicate 31 freeEntry, 1, 0, 1⟩
    ple.rings.fibre := ⟨⟨true, some 0, false⟩ :: List.replicate 15 clearSlot, 1, 0⟩ }

/-- A far cycle of the part of a kind for service slot 0. -/
def access (k : AccessKind) (hdr : Nat) : Access := ⟨k, 0x10000, [], some 0, none, hdr, false, false⟩

/-- The state with a far cycle of the part in flight. -/
def flying (k : AccessKind) (hdr : Nat) (s : State) : State := { s with fsp.port := .part (access k hdr) }

/-- The state with a near cycle present. -/
def near (tag : Tag) (dir : Dir) (a : Addr) (s : State) : State :=
  { s with nsi.near := some ⟨a, dir, false, tag, true, true, 0, false, [], none⟩ }

/-- The next state of a command. -/
def after (c : Instr) (s : State) : State :=
  match exec c s with
  | .next t => t
  | .fault _ => s
  | .refused _ => s

/-- The next state of several commands. -/
def afterAll (cs : List Instr) (s : State) : State := cs.foldl (fun t c => after c t) s

/-! ### Single steps from the spec's examples -/

/-- 9.10, step 1: a user's write is refused with GUARD and recorded. -/
theorem test_user_write_refused :
    (after (.settingWrite .user 0x000000 2) (idle .config)).sdc.refusal = ⟨.guard, 0, 0, 0, .user, .write⟩ := by
  decide +kernel

/-- 9.10, steps 3 and 4: a size code out of its range is taken as the default and read back as 1. -/
theorem test_size_default_read_back :
    (afterAll [.settingWrite .supervisor 0x110000 9, .refusedSettingRead .supervisor 0x110000]
      (idle .config)).nsi.dataOut = 1 := by decide +kernel

/-- 9.10, step 6: START with a base unset is refused with GEOMETRY. -/
theorem test_start_geometry :
    (after (.start .supervisor 0 0) { State.reset with settle := none }).sdc.refusal.cause = .geometry := by
  decide +kernel

/-- 9.10, step 9: DEFER for class 1 is refused with GUARD. -/
theorem test_class_one_guarded :
    (after (.settingWrite .supervisor 0x220100 1) (idle .config)).sdc.refusal = ⟨.guard, 2, 2, 1, .supervisor, .write⟩ := by
  decide +kernel

/-- START taken, then the first read of the sequence granted. -/
theorem test_start_first_read :
    (afterAll [.start .supervisor 0 0, .farGrant] (idle .config)).fsp.port =
      .part ⟨.startRead, 0x012000, [], none, none, 0, false, false⟩ := by decide +kernel

/-- 10.6: a clear does not lose a cause raised after the read. -/
theorem test_clear_keeps_unseen :
    let s := afterAll [.alertPendingRead .user 0, .settingWrite .user 0 0, .clearAlerts .supervisor 0 0]
      (raiseAlert (idle .active) .notice)
    s.pcf.pending = 1 ∧ s.alrt = true := by decide +kernel

/-- 7.9, step 2: 1400 bytes over the soft cap make the regime SOFT. -/
theorem test_soft_cap :
    let s : State :=
      { live .radio with
        umt.tx := 40000000, umt.rx := 27108500, sdc.settings.metering.softCap := 4, sdc.settings.metering.hardCap := 6 }
    (meterTx s 1400).umt.regime = .soft := by decide +kernel

/-- 7.9, the summary: 67,107,000 bytes are 63 MiB. -/
theorem test_summary :
    (after (.summaryLatchRead .user) { idle .active with umt.tx := 40000000, umt.rx := 27107000 }).nsi.dataOut = 63 := by
  decide +kernel

/-- 8.9, case 2: a fetch before the withdrawal is granted cancels it. -/
theorem test_fetch_cancels_withdrawal :
    let s := requestWithdrawal (placed .withdrawing) 0 .fibre 0 4
    let t := afterAll [.nearCycleBegin 0x013000 .read false .fibreTerm true true, .nearWordGrant 0 false] s
    (t.entry 0).state = .fetched ∧ t.fsp.list = [] := by decide +kernel

/-- A post of two slots begins an operation on the first. -/
theorem test_post :
    let t := afterAll [.nearCycleBegin 0x012000 .write false .user true true, .nearWordGrant 2 false] (live .fibre)
    (t.entry 0).state = .placing ∧ (t.entry 1).state = .posted ∧ t.tsm.post = 2 ∧ t.ple.placementQ = [1] := by
  decide +kernel

/-- A controller read of a PLACED slot goes to the path slot. -/
theorem test_redirect :
    (afterAll [.nearCycleBegin 0x010003 .read false .user true true, .nearWordGrant 7 false] (placed .placed)).fsp.pins.fa =
      0x013003 := by decide +kernel

/-- A completion is mirrored to the service slot. -/
theorem test_mirror :
    (afterAll [.nearCycleBegin 0x013000 .write false .fibreTerm true true, .nearWordGrant 0x0080 false]
      (placed .fetched)).fsp.list = [⟨.mirror, 0x010000, [0x0080], some 0, none, 0, false, false⟩] := by decide +kernel

/-- A placement on the radio costs 1500 / 64 credits. -/
theorem test_copy_costs_credits :
    (after (.placementReadComplete ⟨0xA000, 1500, 0, 0, 0, 0, 0, 0⟩)
      (flying .placementRead 0 (operating .placement .reading))).umt.pool = 16000 - 23 := by decide +kernel

/-- An attach limit met with the retry limit at 0 fails the radio. -/
theorem test_radio_fails :
    (after .attachTimerExpiry { idle .config with sdc.settings.radio.retry := 0 }).pmn.power.phase = .failed := by
  decide +kernel

/-- The fibre lost while it serves: a failover to the radio that ends at once, with nothing to withdraw. -/
theorem test_failover :
    let t := after (.confirmTimerExpiry .fibre) { live .fibre with pmn.recs.fibre.line := .falling 0 }
    t.swc.service = some .radio ∧ t.swc.state = .steady ∧ t.swc.failovers = 1 ∧ t.pcf.pending = 0x12 := by decide +kernel

/-- An idle step is one REFCLK cycle. -/
theorem test_idle_step :
    (match step { live .fibre with clock.sub := 1023 } with | .next t => t.clock.uptime | _ => 0) = 1 := by decide +kernel

/-- 5.12: a glitch of the light shorter than the confirm time changes no health state, and a line that comes back from BAD
starts a trial. -/
theorem test_glitch_changes_no_health :
    let s (l : LineState) : State :=
      { live .radio with lines.losn := false, pmn.recs.fibre.health := .down, pmn.recs.fibre.line := l }
    ((after (.lineChange .fibre true) (s (.falling 7))).pathRec .fibre).health = .down ∧
      ((after (.lineChange .fibre true) (s (.falling 7))).pathRec .fibre).line = .good ∧
      ((after (.lineChange .fibre true) (s .bad)).pathRec .fibre).health = .trial := by decide +kernel

/-- R157 and R162: a wrapped burst from offset 5 is two far runs, with FSEL high between them. -/
theorem test_wrapped_burst_raises_fsel :
    let s := afterAll [.nearCycleBegin 0x05 .read true .user true true, .nearWordGrant 1 false, .nearWordGrant 2 false]
      (live .fibre)
    let t := after (.nearWordGrant 3 false) s
    s.fsel = false ∧ t.fsel = true ∧ (after (.nearWordGrant 4 false) t).fsp.pins.fa = 0 := by decide +kernel

/-- R161: the far cycle of a memory setting run has FMSETN low from its grant on. -/
theorem test_far_grant_drives_fmsetn :
    let t := afterAll [.nearCycleBegin 5 .read false .user true false, .farGrant] (live .fibre)
    t.fsp.pins.fmsetn = false ∧ t.fsp.pins.fa = 5 ∧ t.fsel = false := by decide +kernel

/-- R158, R159 and 8.9: a fetch taken at its FAR_GRANT stands when SEL rises after it, and cancels the withdrawal. -/
theorem test_far_grant_takes_fetch :
    let s := requestWithdrawal (placed .withdrawing) 0 .fibre 0 4
    let t := afterAll [.nearCycleBegin 0x013000 .read false .fibreTerm true true, .farGrant, .selRise] s
    (t.entry 0).state = .fetched ∧ t.fsp.list = [] ∧ t.fsp.port = .nearOrphan ⟨0x013000, .read, .fibreTerm⟩ := by
  decide +kernel

/-- R159: a post that waits for the port is granted, with the data it presents, by a later FAR_GRANT. -/
theorem test_far_grant_takes_post :
    let s := afterAll [.nearCycleBegin 0x012000 .write false .user true true, .nearWordGrant 2 false]
      { live .fibre with fsp.port := .part ⟨.header, 5, [1], none, none, 2, false, false⟩ }
    let t := afterAll [.headerWriteComplete, .farGrant] s
    s.tsm.post = 0 ∧ t.tsm.post = 2 ∧ t.fsp.pins.fd = 2 ∧ t.fsel = false ∧
      (after (.nearWordGrant 2 false) t).nsi.near = none := by decide +kernel

/-- R132: a migration toward RADIO that ends on an idle engine has scanned the deferral queue before its failback test. -/
theorem test_scan_follows_migration :
    let s : State :=
      { live .radio with
        tsm := ⟨⟨.deferred, some 0, some 7, some 9, none, none, none, none⟩ :: List.replicate 31 freeEntry, 1, 0, 1⟩
        ple.deferralQ := [⟨0, 7, 0, 0⟩]
        umt.regime := .hard
        swc.state := .migrating
        swc.target := some (some .radio)
        swc.kind := some .forced
        ple.claim := .held }
    let t := endMigration s
    (t.entry 0).state = .skipped ∧ t.ple.deferralQ = [] ∧ t.swc.state = .migrating ∧ t.swc.service = some .fibre := by
  decide +kernel

/-! ### Witnesses: a state and operands that meet a statement's hypotheses, for each of its clauses -/

/-- RSTN low. -/
def low : State := State.lowReset resetLines []

/-- A live state with the far port in use. -/
def porting (p : FarPort) : State := { live .fibre with fsp.port := p }

/-- A single near memory cycle at an address. -/
def cycle (tag : Tag) (dir : Dir) (a : Addr) : NearCycle := ⟨a, dir, false, tag, true, true, 0, false, [], none⟩

theorem witness_StepRunsFrontCommand :
    ({ live .fibre with pending := [.farGrant, .selRise] } : State).pending = .farGrant :: [.selRise] := rfl

theorem witness_EmptyQueueRunsClock :
    (low.pending = [] ∧ low.rstn = false) ∧
    (({ live .fibre with clock.secDue := true } : State).due = some .deferralExpiry) ∧
    ((live .fibre).pending = [] ∧ (live .fibre).rstn = true ∧ (live .fibre).due = none ∧
      (live .fibre).clock.sub + 1 < 1024) ∧
    (({ live .fibre with clock.sub := 1023 } : State).due = none ∧ 1024 ≤ 1023 + 1) := by decide +kernel

theorem witness_ResetLineRestartsPart : (live .fibre).rstn = true ∧ low.rstn = false := by decide +kernel

theorem witness_NearCycleBeginsAndEnds :
    ((live .fibre).rstn = true ∧ (live .fibre).nsi.near = none) ∧ (near .user .read 5 (live .fibre)).nsi.near ≠ none ∧
    (low.rstn = false ∧ low.nsi.bus = none) ∧ ({ low with nsi.bus := some (cycle .user .read 5) } : State).nsi.bus ≠ none ∧
    (porting .free).fsp.port = .free ∧ (porting (.nearRun 4)).fsp.port = .nearRun 4 ∧
    (porting (.nearHeld ⟨5, .read, .user⟩)).fsp.port = .nearHeld ⟨5, .read, .user⟩ ∧
    (porting (.nearOrphan ⟨5, .read, .user⟩)).fsp.port = .nearOrphan ⟨5, .read, .user⟩ ∧
    (porting (.part (access .final 0))).fsp.port = .part (access .final 0) := by decide +kernel

/-- A near cycle with the far port in a state. -/
def meeting (p : FarPort) (c : NearCycle) (s : State) : State := { s with nsi.near := some c, fsp.port := p }

theorem witness_NearWordGrantTakesAndTransfers :
    let c := cycle .user .read 5
    let s (p : FarPort) : State := meeting p c (live .fibre)
    (∀ p ∈ [FarPort.free, .nearRun 4, .nearRun 9, .nearHeld ⟨5, .read, .user⟩,
        .nearOrphan ⟨5, .read, .user⟩, .part (access .final 0)], (s p).presents c 5 ∧ (s p).rstn = true) ∧
    (near .user .read 0x010003 (placed .fetched)).presents (cycle .user .read 0x010003) 0x013003 ∧
    (near .user .read 0x010003 (placed .withdrawing)).treatment (cycle .user .read 0x010003) 0x010003 = .hold ∧
    ({ s .free with fsp.list := [access .final 0], fsp.streak := 4 } : State).nearWins = false ∧
    ({ s .free with fsp.list := [access .final 0], fsp.streak := 3 } : State).nearWins = true ∧
    ({ c with cfgn := false }.cfgn = false ∧ (live .fibre).nsi.near = none ∧ low.rstn = false) := by decide +kernel

theorem witness_NearWordGrantTakesAndTransfers_runs :
    let s (p : FarPort) : State := meeting p (cycle .user .read 5) (live .fibre)
    (s (.nearRun 4)).runContinues 5 ∧ (s (.nearRun 9)).portOpens 5 ∧
      (s (.nearOrphan ⟨5, .read, .user⟩)).portOpens 5 ∧ (s .free).portOpens 5 :=
  ⟨⟨4, rfl, rfl⟩, .inr (.inr ⟨9, rfl, by decide⟩), .inr (.inl ⟨_, rfl⟩), .inl rfl⟩

theorem witness_NearWordGrantTakesAndTransfers_owners :
    let u := live .fibre
    (u.pcf.part = .active ∧ (idle .halted).pcf.part ≠ .active ∧ (cycle .user .write 0).msetn = true) ∧
    (u.regionOf 0x012000 = .header 0 ∧ u.regionOf 0x012005 = .header 5 ∧ u.regionOf 0x01200A = .header 10) ∧
    (u.regionOf 0x013000 = .tx .fibre 0 0 ∧ u.regionOf 0x014078 = .tx .radio 15 0 ∧ u.regionOf 0x013001 = .tx .fibre 0 1) ∧
    (u.regionOf 0x016001 = .rx .radio 0 1 ∧ u.regionOf 0x015000 = .rx .fibre 0 0) ∧
    (u.regionOf 0x010000 = .svcTx 0 0 ∧ u.regionOf 0x011000 = .svcRx 0 0 ∧ u.regionOf 0x01200C = .ordinary) := by
  decide +kernel

theorem witness_ConfigPassesNearWords :
    let s := near .radioTerm .write 0x010000 (idle .config)
    s.rstn = true ∧ s.pcf.part = .config ∧ s.nsi.near = some (cycle .radioTerm .write 0x010000) ∧ s.fsp.port = .free ∧
      (cycle .radioTerm .write 0).dir = .write ∧ (cycle .radioTerm .read 0).dir = .read := by decide +kernel

theorem witness_GuardedWriteIsDropped :
    ((near .user .write 0x012002 (live .fibre)).atRest ∧
      (near .user .write 0x012002 (live .fibre)).treatment (cycle .user .write 0x012002) 0x012002 = .guarded none) ∧
    ((near .radioTerm .write 0x013000 (idle .halted)).atRest ∧
      (near .radioTerm .write 0x013000 (idle .halted)).treatment (cycle .radioTerm .write 0x013000) 0x013000 =
        .guarded (some .fibre)) ∧
    (live .fibre).wordAddr (cycle .user .write 0x012002) 0 = 0x012002 := by decide +kernel

theorem witness_WordTreatments :
    let s := live .fibre
    ((idle .config).pcf.part = .config ∧ s.pcf.part ≠ .config ∧ (cycle .user .read 0).msetn = true) ∧
    (s.regionOf 0x012000 = .header 0 ∧ s.regionOf 0x01200B = .header 11 ∧ s.regionOf 0x01200C = .ordinary) ∧
    (s.regionOf 0x013000 = .tx .fibre 0 0 ∧ s.regionOf 0x01407F = .tx .radio 15 7 ∧
      s.regionOf 0x015000 = .rx .fibre 0 0 ∧ s.regionOf 0x016080 = .ordinary) ∧
    (s.regionOf 0x010000 = .svcTx 0 0 ∧ s.regionOf 0x0100FF = .svcTx 31 7 ∧ s.regionOf 0x011000 = .svcRx 0 0) ∧
    ((idle .starting).pcf.part = .starting ∧ (idle .halted).pcf.part = .halted) ∧
    (((placed .withdrawing).entry 0).state = .withdrawing ∧
      ((operating .placement .waiting).entry 0).state = .placing ∧ (s.entry 0).state = .free) ∧
    (((placed .placed).entry 0).path = some .fibre ∧ ((placed .placed).entry 0).pslot = some 0) ∧
    (s.regionOf 0x0110F8 = .svcRx 31 0 ∧ (cycle .radioTerm .write 0).tag = .radioTerm) ∧
    (s.rxEntry 0 = .empty ∧
      ({ s with rmu.entries := [.filled .radio 15] } : State).rxEntry 0 = .filled .radio 15) := by decide +kernel

theorem witness_WordTreatments_regions :
    (live .fibre).geo.fits ∧ (live .fibre).regionOf 0x00FFFF = .ordinary ∧
    (live .fibre).svcTxAddr 31 7 = 0x0100FF ∧ (live .fibre).regionOf 0x0100FF = .svcTx 31 7 ∧
    (live .fibre).regionOf 0x010100 = .ordinary ∧ (live .fibre).txAddr .radio 15 7 = 0x01407F ∧
    (live .fibre).regionOf 0x014080 = .ordinary ∧ (live .fibre).rxAddr .fibre 0 1 = 0x015001 ∧
    (live .fibre).regionOf 0x01200B = .header 11 ∧ (live .fibre).regionOf 0x01200C = .ordinary := by
  rw [← Geometry.accepted_iff]
  decide +kernel

theorem witness_WordTreatments_hold :
    let plain := cycle .user .read 5
    let t (c : NearCycle) (s : State) : Treatment := s.treatment c (s.wordAddr c c.pos)
    (low.rstn = false ∧ (live .fibre).rstn = true ∧ (live .fibre).nsi.near = none) ∧
    ({ plain with cfgn := false }.cfgn = false ∧ { plain with dead := true }.dead = true) ∧
    (t plain (live .fibre) = .pass ∧ t (cycle .user .write 0x012002) (live .fibre) = .guarded none ∧
      t (cycle .user .read 0x010000) (placed .withdrawing) = .hold ∧
      (t (cycle .user .read 0x010003) (placed .placed)).farAddr 0x010003 = some 0x013003) ∧
    (∀ p ∈ [FarPort.free, .nearRun 4, .nearRun 9, .nearHeld ⟨5, .read, .user⟩,
        .nearOrphan ⟨5, .read, .user⟩, .part (access .final 0)],
      (meeting p plain (live .fibre)).fsp.port = p ∧ (meeting p plain (live .fibre)).nsi.near = some plain ∧
        (meeting p plain (live .fibre)).rstn = true) := by decide +kernel

theorem witness_BurstWordsCoverBlock_single : (cycle .user .read 5).burst = false := rfl

theorem witness_BurstWordsCoverBlock :
    let s (length order : Nat) : State := { live .fibre with sdc.settings.bus := ⟨length, order, 0⟩ }
    (s 0 0).sdc.settings.bus.length ≤ 2 ∧ (s 2 1).sdc.settings.bus.length ≤ 2 ∧ (s 2 1).sdc.settings.bus.order ≠ 0 := by
  decide +kernel

theorem witness_PostTakesFreeEntries :
    let s := placed .placed
    s.tsm.entries.length = s.svcTxSize ∧ s.sdc.settings.geometry.svcTx.size ≤ 3 ∧
      s.freeRun (min ((2 : Word) - s.tsm.post).toNat s.svcTxSize) = ((2 : Word) - s.tsm.post).toNat ∧
      s.freeRun (min ((33 : Word) - s.tsm.post).toNat s.svcTxSize) < ((33 : Word) - s.tsm.post).toNat := by decide +kernel

theorem witness_ReclaimFreesCompletedEntries :
    let s : State :=
      { live .fibre with
        tsm := ⟨⟨.done, some 0, some 4, some 9, none, none, some 1, some false⟩ :: List.replicate 31 freeEntry, 1, 0, 1⟩ }
    s.tsm.entries.length = s.svcTxSize ∧ s.sdc.settings.geometry.svcTx.size ≤ 3 ∧
      s.doneRun (min ((1 : Word) - s.tsm.reclaim).toNat s.svcTxSize) = ((1 : Word) - s.tsm.reclaim).toNat ∧
      s.doneRun (min ((2 : Word) - s.tsm.reclaim).toNat s.svcTxSize) < ((2 : Word) - s.tsm.reclaim).toNat := by
  decide +kernel

/-- A live state whose fibre slot 0 has this record. -/
def slotted (r : SlotRec) : State :=
  { live .fibre with ple.rings.fibre := ⟨r :: List.replicate 15 clearSlot, 1, 0⟩ }

theorem witness_WithdrawalRaceHasOneWinner :
    (((placed .withdrawing).ring .fibre).slotAt 0 = ⟨true, some 0, false⟩ ∧ 0 < (placed .withdrawing).tsm.entries.length ∧
      ((placed .withdrawing).entry 0).state = .withdrawing) ∧
    (∀ published ∈ [true, false], ∀ gone ∈ [true, false],
      ((slotted ⟨published, none, gone⟩).ring .fibre).slotAt 0 = ⟨published, none, gone⟩) := by decide +kernel

theorem witness_WithdrawalRaceHasOneWinner_pass :
    let s := placed .withdrawing
    (s.ring .fibre).slotAt ((s.ring .fibre).consumer.toNat % (16 * 2 ^ (s.geo.tx.get .fibre).size)) = ⟨true, some 0, false⟩ ∧
      s.ple.op = none ∧ (s.ring .fibre).producer ≠ (s.ring .fibre).consumer ∧
      ((placed .placed).entry 0).state = .placed ∧ ((placed .fetched).entry 0).state = .fetched ∧
      (((placed .fetched).ring .fibre).slotAt 0).mapped = some 0 ∧
      (((live .fibre).ring .fibre).slotAt 0).published = false := by decide +kernel

theorem witness_CompletionIsMirrored :
    ∀ st ∈ [TxState.placed, .fetched, .withdrawing],
      ((placed st).ring .fibre).slotAt 0 = ⟨true, some 0, false⟩ ∧ 0 < ((placed st).ring .fibre).slots.length ∧
        0 < (placed st).tsm.entries.length ∧ ((placed st).entry 0).state = st := by decide +kernel

theorem witness_TerminalIndexesAreJudged :
    let s := placed .placed
    let c := (s.ring .fibre).consumer
    let q := (s.ring .fibre).producer
    let r := s.rxRecs .radio
    let room := (r.consumer + BitVec.ofNat 16 (s.rxSize .radio) - r.producer).toNat
    (q - c).toNat < ((2 : Word) - c).toNat ∧ (((1 : Word) - c).toNat ≤ (q - c).toNat ∧ s.ple.op = none) ∧
    room < ((17 : Word) - r.producer).toNat ∧ (((16 : Word) - r.producer).toNat ≤ room ∧ 16 ≠ r.producer) ∧
    ((0 : Word) - r.producer).toNat ≤ room := by decide +kernel

/-- An operation waiting for room in the fibre ring, with a slot in the ring to pass, and a pool. -/
def ringWait (producer : Word) (c : Claim) (pool : Nat) (p : Path) : State :=
  { operating .placement .waiting with
    tsm := ⟨⟨.placing, some 0, some 4, some 1500, some p, none, none, none⟩ :: List.replicate 31 freeEntry, 1, 0, 1⟩
    ple.op := some ⟨0, .placement, .waiting, p⟩
    ple.rings := ⟨⟨List.replicate 16 clearSlot, producer, 0⟩, ⟨List.replicate 16 clearSlot, producer, 0⟩⟩
    ple.claim := c
    umt.pool := pool }

theorem witness_TerminalIndexesAreJudged_wait :
    let u (s : State) (p : Path) : State :=
      { s.passedTo p 1 with pmn.recs := (s.passedTo p 1).pmn.recs.set p { (s.passedTo p 1).pathRec p with stall := some 0 } }
    let a := ringWait 16 .none 9000 .radio
    let b := ringWait 16 .none 5 .radio
    let c := ringWait 40 .pending 9000 .fibre
    let d := ringWait 40 .none 9000 .fibre
    (((1 : Word) - (a.ring .radio).consumer).toNat ≤ ((a.ring .radio).producer - (a.ring .radio).consumer).toNat ∧
      (1 : Word) ≠ (a.ring .radio).consumer ∧ a.ple.op = some ⟨0, .placement, .waiting, .radio⟩) ∧
    ((u a .radio).costOf .radio 0 ≤ (u a .radio).umt.pool ∧
      ((a.ring .radio).producer - 1).toNat < a.txSize .radio) ∧
    (u b .radio).umt.pool < (u b .radio).costOf .radio 0 ∧
    (c.txSize .fibre ≤ ((c.ring .fibre).producer - 1).toNat ∧ c.ple.claim = .pending) ∧
    (d.txSize .fibre ≤ ((d.ring .fibre).producer - 1).toNat ∧ d.ple.claim ≠ .pending) ∧
    (operating .placement .copying).ple.op = some ⟨0, .placement, .copying, .radio⟩ := by decide +kernel

theorem witness_TerminalIndexesAreJudged_room :
    ((live .fibre).rxRecs .radio).producer - ((live .fibre).rxRecs .radio).consumer = 0 ∧
      (live .fibre).rxSize .radio = 16 := by decide +kernel

/-- The service receive ring with two filled entries to release. -/
def received : State :=
  { live .fibre with
    rmu.entries := .filled .fibre 0 :: .filled .radio 0 :: List.replicate 30 .empty
    rmu.available := 2
    rmu.recs := ⟨⟨1, 1, 0⟩, ⟨1, 1, 0⟩⟩ }

theorem witness_AssignmentRunFillsRing_release :
    (received.rxOccupancy ≤ received.svcRxSize ∧ received.sdc.settings.geometry.svcRx.size ≤ 3) ∧
    (received.rxEntry 0 = .filled .fibre 0 ∧ received.rxEntry 1 = .filled .radio 0 ∧ received.rxEntry 2 = .empty) ∧
    ((received.rmu.available - received.rmu.release).toNat = 2 ∧ 2 < ((3 : Word) - received.rmu.release).toNat) := by
  decide +kernel

theorem witness_AssignmentRunFillsRing_filled :
    let s : State := { live .fibre with rmu.arrivals := [⟨.fibre, 3⟩, ⟨.radio, 40⟩] }
    s.rxOccupancy ≤ s.svcRxSize ∧ s.sdc.settings.geometry.svcRx.size ≤ 3 ∧ s.rmu.entries.length = s.svcRxSize ∧
      (∀ b ∈ s.rmu.arrivals, 1 ≤ b.count) ∧ (waitingSlots s.rmu.arrivals)[3]? = some .radio ∧
      min (waitingSlots s.rmu.arrivals).length (s.svcRxSize - s.rxOccupancy) = 32 := by decide +kernel

theorem witness_AssignmentRunFillsRing :
    let s : State := { live .fibre with rmu.arrivals := [⟨.fibre, 3⟩, ⟨.radio, 40⟩] }
    s.rxOccupancy ≤ s.svcRxSize ∧ s.svcRxSize ≤ 256 ∧ (∀ b ∈ s.rmu.arrivals, 1 ≤ b.count) ∧
      (assignRun s).rmu.available ≠ s.rmu.available ∧
      (assignRun (live .fibre)).rmu.available = (live .fibre).rmu.available := by decide +kernel

theorem witness_WriteRefusalOrder :
    (writeOf (.settingWrite .user 0x000000 2) = some (.user, 0x000000, 2) ∧
      (idle .active).judges .write .user 0x000000) ∧
    (¬ definedWrite 6 11 0 ∧ (idle .active).judges .write .supervisor 0x6B0000) ∧
    (definedWrite 5 6 0 ∧ (idle .active).pcf.part ≠ .config ∧ (idle .active).judges .write .supervisor 0x560000) ∧
    ((3 : Word).toNat ≥ 3 ∧ (2 : Word).toNat ≥ 2 ∧ (128 : Word).toNat ≥ 128 ∧
      (idle .active).judges .write .supervisor (settingAddr 6 3 0)) ∧
    (idle .active).judges .write .supervisor 0x200100 := by decide +kernel

theorem witness_WrittenSettingReadsBack :
    ((idle .config).judges .write .supervisor 0x570000 ∧ (idle .config).judges .write .supervisor 0x000000 ∧
      (idle .active).judges .write .supervisor 0x300000 ∧ (idle .active).judges .write .supervisor 0x3F0000 ∧
      (idle .halted).judges .write .supervisor 0x200100 ∧ (idle .halted).judges .write .supervisor 0x550000) ∧
    (idle .config).sdc.settings.policy.length = 8 ∧ definedWrite 0 2 0 ∧ definedWrite 5 6 7 ∧ definedWrite 2 6 1 ∧
    writeOf (.settingWrite .supervisor 0x3F0000 15) = some (.supervisor, 0x3F0000, 15) := by
  refine ⟨by decide +kernel, by decide +kernel, by unfold definedWrite; omega, by unfold definedWrite; omega,
    by unfold definedWrite; omega, rfl⟩

theorem witness_WrittenSettingReadsBack_others : ¬ sameItem 0x300000 0x310000 ∧ ¬ sameItem 0x200000 0x200700 := by
  constructor <;> decide

theorem witness_WrittenSettingReadsBack_sizes :
    ∀ i ∈ [1, 3, 6, 10], (idle .config).judges .write .supervisor (settingAddr 1 (BitVec.ofNat 4 i) 0) ∧
      (settingItem (settingAddr 1 (BitVec.ofNat 4 i) 0)).toNat = i := by decide +kernel

theorem witness_WrittenSettingReadsBack_expiries :
    (∀ i ∈ [3, 4, 5, 11, 12, 13], (idle .active).judges .write .supervisor (settingAddr 3 (BitVec.ofNat 4 i) 0) ∧
      (settingItem (settingAddr 3 (BitVec.ofNat 4 i) 0)).toNat = i) ∧
    (∀ i ∈ [1, 2, 4, 5], (idle .active).judges .write .supervisor (settingAddr 4 (BitVec.ofNat 4 i) 0) ∧
      (settingItem (settingAddr 4 (BitVec.ofNat 4 i) 0)).toNat = i) ∧
    (idle .active).judges .write .supervisor (settingAddr 5 4 0) ∧
    (true, Instr.attachTimerExpiry) ∈ ({ idle .active with
      pmn.power.attach := some 2000000, sdc.settings.radio.attach := 1 } : State).expiries := by decide +kernel

theorem witness_SettingReadsAnswer :
    (∀ t ∈ [Tag.supervisor, .user, .fibreTerm, .radioTerm], (idle .halted).judges .read t 0x800000) ∧
    readOf (.refusedSettingRead .user 0x800000) = some (.user, 0x800000) ∧
    readOf (.alertPendingRead .radioTerm 0) = some (.radioTerm, settingAddr 8 7 0) := by decide +kernel

theorem witness_SettingReadsAnswer_items :
    (∀ r ∈ [(0, 2, 9), (1, 12, 0), (2, 6, 7), (3, 15, 255), (4, 5, 0), (5, 6, 7), (6, 10, 0), (8, 3, 6), (8, 4, 6),
      (8, 5, 8), (8, 7, 3), (8, 8, 8), (8, 12, 1), (8, 13, 5), (9, 0, 7), (9, 1, 1), (10, 0, 5), (10, 1, 5), (10, 2, 1),
      (10, 2, 4)], definedRead r.1 r.2.1 r.2.2) ∧
    ∀ r ∈ [(2, 6, 8), (5, 6, 8), (7, 0, 0), (8, 3, 7), (8, 4, 7), (8, 5, 9), (8, 8, 9), (8, 12, 2), (8, 13, 6), (8, 14, 0),
      (9, 0, 8), (9, 1, 2), (10, 0, 6), (10, 2, 0), (10, 2, 5)], ¬ definedRead r.1 r.2.1 r.2.2 := by
  simp [definedRead, definedWrite]

theorem witness_LatchingReadsSnapshot :
    (live .radio).rstn = true ∧ (live .radio).settle = none ∧ (live .radio).nsi.near = none := by decide +kernel

theorem witness_SettingBurstIsRefused :
    let c : NearCycle := ⟨0x000000, .read, true, .user, false, true, 0, false, [], none⟩
    ({ live .radio with nsi.near := some c } : State).nsi.near = some c ∧ c.cfgn = false ∧ c.burst = true := by
  decide +kernel

theorem witness_SettleAnswersNothing :
    State.reset.rstn = true ∧ State.reset.settle ≠ none ∧ State.reset.nsi.near = none ∧
      writeOf (.start .supervisor 0 0) ≠ none ∧ readOf (.uptimeLatchRead .user) ≠ none := by decide +kernel

/-- An active state whose sequencer is in a phase. -/
def phased (p : PowerPhase) : State := { live .fibre with pmn.power.phase := p }

theorem witness_RadioCommandsPowerUp :
    (∀ p ∈ [PowerPhase.standby, .powered, .cycling, .failed], (phased p).pmn.power.phase = p ∧
      (phased p).judges .write .supervisor (settingAddr 4 0 0) ∧ (phased p).judges .write .supervisor (settingAddr 6 6 0)) ∧
    (live .fibre).sdc.settings.radio.standby = .alwaysOn := by decide +kernel

theorem witness_MeterCommandsComputeRegime :
    (live .radio).judges .write .supervisor (settingAddr 5 0 0) ∧
    (live .radio).judges .write .supervisor (settingAddr 5 1 0) ∧
    (live .radio).judges .write .supervisor (settingAddr 5 5 0) ∧
    (live .radio).judges .write .supervisor (settingAddr 6 7 0) ∧
    (idle .config).judges .write .supervisor (settingAddr 5 6 3) ∧
    (idle .config).judges .write .supervisor (settingAddr 5 6 4) := by decide +kernel

theorem witness_StartChecksGeometry :
    (∀ p ∈ [PartState.config, .starting, .active, .halted], (idle p).pcf.part = p ∧
      (idle p).judges .write .supervisor (settingAddr 6 0 0)) ∧
    (idle .config).geo.fits ∧ ¬ ({ State.reset with settle := none } : State).geo.fits := by
  refine ⟨by decide +kernel, ?_, ?_⟩
  · rw [← Geometry.accepted_iff]; decide +kernel
  · rw [← Geometry.accepted_iff]; decide +kernel

theorem witness_HaltAndReconfigure :
    ∀ p ∈ [PartState.config, .starting, .active, .halted], (idle p).pcf.part = p ∧
      (idle p).judges .write .supervisor (settingAddr 6 1 0) ∧
      (idle p).judges .write .supervisor (settingAddr 6 2 0) := by decide +kernel

theorem witness_MigrationStart :
    (∀ ph ∈ [OpPhase.reading, .waiting, .copying],
      (operating .release ph).ple.op = some ⟨0, .release, ph, .radio⟩) ∧
    (live .fibre).ple.op = none ∧ ({ live .fibre with ple.scan := some ⟨[], none⟩ } : State).ple.scan ≠ none ∧
    (live .fibre).swc.service = some .fibre ∧ (live .fibre).swc.service ≠ some .radio ∧
    (live .radio).swc.service ≠ some .fibre := by
  decide +kernel

/-- An active state in a switch state with the emergency flag as given. -/
def switching (st : SwitchState) (emergency : Bool) : State :=
  { live .radio with swc.state := st, swc.emergency := ⟨emergency, none⟩ }

theorem witness_ForcePathTable :
    (∀ st ∈ [SwitchState.steady, .waiting, .migrating], ∀ e ∈ [false, true],
      (switching st e).judges .write .supervisor (settingAddr 6 3 0) ∧ (switching st e).pcf.part = .active ∧
        (switching st e).swc.state = st ∧ (switching st e).swc.emergency.flag = e ∧
        (switching st e).swc.service = some .radio ∧ ((switching st e).pathRec .fibre).health = .up) ∧
    (idle .halted).pcf.part ≠ .active ∧ ((idle .active).pathRec .fibre).health ≠ .up := by decide +kernel

theorem witness_FailbackNowTable : (switching .steady false).judges .write .supervisor (settingAddr 6 4 0) := by
  decide +kernel

theorem witness_FailbackModeAndTest :
    let applies (s : State) : Prop := s.pcf.part = .active ∧ s.swc.state = .steady ∧ s.swc.service = some .radio ∧
      (s.pathRec .fibre).health = .up
    ((live .radio).judges .write .supervisor (settingAddr 6 5 0) ∧ (switching .waiting false).swc.state = .waiting) ∧
    applies (live .radio) ∧ ¬ applies (live .fibre) ∧
    applies { live .radio with swc.mode := .manual } ∧ applies { live .radio with swc.force := some .radio } ∧
    (live .radio).swc.mode = .auto ∧ (live .radio).swc.force = none ∧ applies (switching .steady true) := by
  decide +kernel

theorem witness_ClearAlertsAndFaults :
    (live .fibre).rstn = true ∧ (live .fibre).settle = none ∧ (live .fibre).nsi.near = none ∧
      (live .fibre).sdc.seen = 0 ∧ (127 : Word).toNat ≤ 127 := by decide +kernel

/-- Work for the far port: a near word, a short write, a copy, a reissue. -/
def waiting (word : Bool) (list : List Access) (copy again : Option Access) (streak : Nat) : State :=
  { (if word then near .user .read 5 (live .fibre) else live .fibre) with
    fsp.list := list, fsp.copyReq := copy, fsp.reissue := again, fsp.streak := streak }

theorem witness_nearWaits : (waiting true [access .final 0] none none 3).nearWaits :=
  ⟨cycle .user .read 5, 5, by decide +kernel, by decide⟩

theorem witness_nearWaits_write :
    let s : State := { live .fibre with nsi.near := some { cycle .user .write 5 with data := some 9 } }
    s.nearWaits ∧ ¬ (near .user .write 5 (live .fibre)).nearReady := by
  refine ⟨⟨{ cycle .user .write 5 with data := some 9 }, 5, by decide +kernel, by decide⟩, by decide +kernel⟩

theorem witness_presents : (waiting true [access .final 0] none none 3).presents (cycle .user .read 5) 5 :=
  ⟨by decide +kernel, by decide +kernel, by decide +kernel, by decide +kernel⟩

theorem witness_not_nearWaits (l : List Access) (c a : Option Access) (n : Nat) :
    ¬ (waiting false l c a n).nearWaits := by
  rintro ⟨y, fa, h, -⟩
  exact absurd h (by simp [waiting, live, idle, State.reset, State.released, State.lowReset, resetNsi])

theorem witness_FarGrantTable :
    let w := access .final 0
    (low.rstn = false ∧ (porting (.nearHeld ⟨5, .read, .user⟩)).rstn = true ∧ (porting (.part w)).rstn = true) ∧
    (waiting true [w] none (some w) 3).fsp.reissue = some w ∧ (waiting true [w] none none 3).fsp.streak < 4 ∧
    (waiting true [w] none none 4).fsp.list = [w] ∧ ¬ (waiting true [w] none none 4).fsp.streak < 4 ∧
    (waiting false [] (some w) none 4).fsp.copyReq = some w ∧ (waiting false [] none none 4).fsp.list = [] ∧
    (waiting false [] none none 4).fsp.port = .free := by decide +kernel

theorem witness_FarGrantTable_runs :
    let c := cycle .user .read 5
    let s (p : FarPort) : State := meeting p c (live .fibre)
    ((s (.nearRun 4)).presents c 5 ∧ (s (.nearRun 4)).runContinues 5) ∧
    ((s (.nearRun 9)).presents c 5 ∧ ∀ d fa, (s (.nearRun 9)).presents d fa →
      ¬ (s (.nearRun 9)).runContinues fa) ∧
    (s (.nearOrphan ⟨5, .read, .user⟩)).fsp.port = .nearOrphan ⟨5, .read, .user⟩ := by
  have h (l : Addr) (hl : l = 4 ∨ l = 9) :
      (meeting (.nearRun l) (cycle .user .read 5) (live .fibre)).presents (cycle .user .read 5) 5 := by
    rcases hl with rfl | rfl <;> decide +kernel
  refine ⟨⟨h 4 (.inl rfl), ⟨4, rfl, rfl⟩⟩, ⟨h 9 (.inr rfl), ?_⟩, rfl⟩
  rintro d fa ⟨h1, -, -, h4⟩ hr
  obtain rfl : cycle .user .read 5 = d := Option.some.inj h1
  obtain rfl : (5 : Addr) = fa := Option.some.inj ((h 9 (.inr rfl)).2.2.2.symm.trans h4)
  obtain ⟨l, h5, h6⟩ := hr
  obtain rfl : 9 = l := by simpa [meeting] using h5
  exact absurd h6 (by decide)

theorem witness_NearWordMeetsHoldLimit :
    let w : NearFlight := ⟨5, .read, .fibreTerm⟩
    let s : State := { near .fibreTerm .read 5 (live .fibre) with fsp.port := .nearHeld w }
    let c : NearCycle := { cycle .fibreTerm .read 5 with dead := true }
    (s.fsp.port = .nearHeld w ∧ s.nsi.near = some (cycle .fibreTerm .read 5)) ∧
    (porting (.nearOrphan w)).fsp.port = .nearOrphan w ∧
    (({ live .fibre with nsi.near := some c } : State).nsi.near = some c ∧ c.cfgn = true ∧ c.dead = true) ∧
    (porting .free).fsp.port = .free ∧ (porting (.nearRun 4)).fsp.port = .nearRun 4 := by decide +kernel

theorem witness_PartAccessLadder :
    let a := access .copy 0
    (porting (.part a)).fsp.port = .part a ∧ a.again = false ∧ { a with again := true }.again = true ∧
    (porting (.part a)).swc.state ≠ .migrating ∧ (switching .migrating false).swc.state = .migrating := by decide +kernel

/-- A placement read in flight on an operation. -/
def reading (k : OpKind) : State := flying .placementRead 0 (operating k .reading)

/-- A reading state whose entry has no class or length cached. -/
def fresh : State :=
  { reading .placement with
    tsm := ⟨⟨.placing, some 0, none, none, some .radio, none, none, none⟩ :: List.replicate 31 freeEntry, 1, 0, 1⟩ }

/-- The words of a slot with a class and a length. -/
def words (cls : Cls) (len : Word) : Descriptor := ⟨composeW0 true false cls 0 0, len, 0, 0, 0, 0, 0, 0⟩

/-- The length a placement read of a fresh entry caches. -/
def lengthRead (len : Word) : Nat :=
  ((({ fresh with fsp.port := .free } : State).readInto 0 (words 4 len)).entry 0).len.getD 0 |>.toNat

theorem witness_InvalidLengthIsSkipped :
    (fresh.carries .placementRead (access .placementRead 0) ∧ fresh.ple.op = some ⟨0, .placement, .reading, .radio⟩ ∧
      0 < fresh.tsm.entries.length ∧ (fresh.entry 0).final = none) ∧
    lengthRead 0 = 0 ∧ lengthRead 1 = 1 ∧ lengthRead 2047 = 2047 ∧ lengthRead 2048 = 2048 := by decide +kernel

theorem witness_PlacementReadDecides :
    let s := reading .placement
    let b : State := ({ s with fsp.port := .free } : State).readInto 0 (words 4 1500)
    (∀ k ∈ [OpKind.placement, .release, .reDecision], (reading k).carries .placementRead (access .placementRead 0) ∧
      (reading k).ple.op = some ⟨0, k, .reading, .radio⟩ ∧ 0 < (reading k).tsm.entries.length) ∧
    (b.hasOlder 0 4 ↔ False) ∧ b.actionOn .radio 4 = .pass ∧ b.actionOn .radio 6 = .defer ∧
    ({ b with umt.regime := .battery } : State).actionOn .radio 5 = .skip ∧ b.costOf .radio 0 = 23 ∧
    ({ b with
        tsm := ⟨⟨.deferred, some 0, some 4, some 9, none, none, none, none⟩ ::
          ⟨.placing, some 1, some 4, some 9, some .radio, none, none, none⟩ :: List.replicate 30 freeEntry, 2, 0, 2⟩
        ple.deferralQ := [⟨0, 4, 0, 0⟩] } : State).hasOlder 1 4 ∧
    ((s.ring .radio).producer - (s.ring .radio).consumer).toNat < s.txSize .radio ∧
    s.txSize .radio ≤ ((16 : Word) - 0).toNat := by decide +kernel

theorem witness_PublicationMapsSlot :
    let s : State :=
      { operating .placement .copying with
        fsp.port := .part (access .copy 0)
        tsm := ⟨⟨.placing, some 0, some 2, some 9, some .radio, some 0, none, none⟩ :: List.replicate 31 freeEntry, 1, 0, 1⟩ }
    s.carries .copy (access .copy 0) ∧ s.ple.op = some ⟨0, .placement, .copying, .radio⟩ ∧ (s.entry 0).pslot = some 0 := by
  decide +kernel

/-- A withdrawal write in flight under a claim. -/
def withdrawing (c : Claim) (target : Option (Option Path)) : State :=
  { flying .withdrawal 0 (placed .withdrawing) with ple.claim := c, swc.target := target }

theorem witness_WithdrawalIsRedecided :
    (∀ c ∈ [Claim.held, .none], ∀ t ∈ [some (some Path.radio), some none, none],
      (withdrawing c t).carries .withdrawal (access .withdrawal 0) ∧ (withdrawing c t).ple.claim = c ∧
        (withdrawing c t).swc.target = t ∧ ((withdrawing c t).entry 0).path = some .fibre ∧
        ((withdrawing c t).entry 0).pslot = some 0) ∧ (access .withdrawal 0).slot = some 0 := by decide +kernel

theorem witness_CompletionsFreePort :
    (∀ k ∈ [AccessKind.mirror, .final, .header], (flying k 0 (placed .done)).carries k (access k 0)) ∧
    completes .mirrorWriteComplete = some .mirror ∧ completes .headerWriteComplete = some .header ∧
    (flying .copy 0 (idle .halted)).fsp.port = .part (access .copy 0) ∧ (idle .halted).pcf.part = .halted ∧
    { access .copy 0 with void := true }.void = true ∧ (live .fibre).fsp.port = .free := by decide +kernel

theorem witness_StartSequenceRuns :
    (∀ h ∈ [0, 1, 3, 5, 6, 9, 10], (flying .startRead h (idle .starting)).carries .startRead (access .startRead h) ∧
      (access .startRead h).hdr = h) ∧
    (∀ h ∈ [2, 4, 7, 8, 11], (flying .startWrite h (idle .starting)).carries .startWrite (access .startWrite h)) ∧
    (idle .starting).pcf.part = .starting ∧ (idle .starting).swc.service = none ∧
    (idle .starting).swc.state = .steady ∧ (idle .starting).ple.claim = .none := by decide +kernel

/-- A state with the health and debounce state of both paths as given, both lines at a level. -/
def lined (h : Health) (l : LineState) (level : Bool) : State :=
  { live .fibre with
    lines := ⟨level, level, level⟩
    pmn.recs.fibre.health := h
    pmn.recs.fibre.line := l
    pmn.recs.radio.health := h
    pmn.recs.radio.line := l }

theorem witness_LineDebounceTable :
    (∀ p ∈ [Path.fibre, .radio], ∀ l ∈ [LineState.good, .falling 7, .bad], ∀ h ∈ [Health.down, .up], ∀ b ∈ [true, false],
      (lined h l b).lines.level p = b ∧ ((lined h l b).pathRec p).line = l ∧ ((lined h l b).pathRec p).health = h ∧
        (lined h l b).rstn = true ∧ (lined h l b).pmn.power.phase = .powered) ∧
    (low.rstn = false ∧ low.lines.level .fibre = true) ∧ (live .fibre).sdc.settings.timing.confirm.get .fibre ≠ 0 := by
  decide +kernel

theorem witness_CauseWhileDownIsGraded :
    (∀ p ∈ [Path.fibre, .radio], ((lined .down (.falling 7) false).pathRec p).health = .down ∧
      ((lined .down (.falling 7) false).pathRec p).line = .falling 7 ∧
      ((lined .down .bad false).ring p).producer = ((lined .down .bad false).ring p).consumer) ∧
    (let s : State := { lined .down .bad false with rmu.recs.radio := ⟨16, 0, 0⟩ }
     (s.rxRecs .radio).producer = (s.rxRecs .radio).consumer + BitVec.ofNat 16 (s.rxSize .radio) ∧
        17 ≠ (s.rxRecs .radio).producer) := by decide +kernel

/-- A path record after judging, with a health, a line, a mark and counts as given. -/
def judged (h : Health) (l : LineState) (mark : Bool) (count : Nat) : State :=
  { lined h l true with pmn.recs.fibre.mark := mark, pmn.recs.fibre.silence := count, pmn.recs.fibre.trial := count }

theorem witness_HeartbeatJudgesPaths :
    low.rstn = false ∧ (live .fibre).rstn = true ∧
    (∀ h ∈ [Health.off, .failed, .up, .trial, .down], ∀ l ∈ [LineState.good, .falling 1, .bad],
      ((judged h l false 9).pathRec .fibre).health = h ∧ ((judged h l false 9).pathRec .fibre).line = l) ∧
    (let s := judged .up .good false 8
     s.pcf.part = .active ∧ s.sdc.settings.timing.silence.get .fibre = 10 ∧ (s.pathRec .fibre).silence + 1 < 10 ∧
       10 ≤ ((judged .up .good false 9).pathRec .fibre).silence + 1 ∧
       ((judged .up .good true 9).pathRec .fibre).mark = true) ∧
    ((live .fibre).sdc.settings.timing.silence.get .radio = 0 ∧ (live .fibre).sdc.settings.timing.trial3 = 30 ∧
      ((judged .trial .good true 29).pathRec .fibre).trial + 1 = 30 ∧ ((judged .trial .good true 29).pathRec .fibre).grade = 3) ∧
    (idle .active).swc.service = none ∧ (idle .active).swc.state = .steady ∧ (live .fibre).swc.service ≠ none := by
  decide +kernel

theorem witness_DownEventEffects :
    (∀ p ∈ [Path.fibre, .radio], ((live p).pathRec p).health = .up ∧ (live p).swc.service = some p ∧
      (live p).pmn.power.phase = .powered) ∧ (live .radio).pcf.part = .active ∧
    (switching .waiting false).swc.state = .waiting ∧
    (let s : State := { live .radio with pmn.recs.radio.stall := some 0 }
     s.rstn = true ∧ (s.pathRec .radio).stall ≠ none) ∧ ((live .radio).pathRec .radio).stall = none := by decide +kernel

/-- The fibre serves alone with as many flaps as given. -/
def flapping (n : Nat) : State :=
  { live .fibre with pmn.flaps := List.replicate n 0, pmn.recs.radio.health := .down }

/-- The flap list below its limit, at it, and full, and a failover to NONE. -/
theorem witness_DownEventEffects_faults :
    (∀ n ∈ [2, 3, 15], (flapping n).pmn.flaps.length = n) ∧ (flapping 3).sdc.settings.timing.flapLimit = 4 ∧
    (flapping 3).pcf.part = .active ∧ ((flapping 3).pathRec .fibre).health = .up ∧
    (flapping 3).swc.service = some .fibre ∧ (downEvent (flapping 3) .fibre .stall).swc.service = none := by decide +kernel

/-- R101, R103, R127: three PATH faults in order, NO_PATH last. -/
theorem test_down_event_faults :
    let t := downEvent (flapping 3) .fibre .light
    t.pcf.counts.path = (flapping 3).pcf.counts.path + 3 ∧ t.pcf.last.map (·.cause) = some .noPath ∧
      t.swc.mode = .manual ∧ (downEvent (flapping 2) .fibre .light).pcf.counts.path = (flapping 2).pcf.counts.path + 2 := by
  decide +kernel

/-- A state with the sequencer's timers as given. -/
def sequenced (attach off keep : Timer) (retry : Nat) (h : Health) : State :=
  { live .fibre with
    pmn.recs.radio.health := h
    pmn.power := ⟨if off.isSome then .cycling else .powered, attach, off, keep, retry⟩
    sdc.settings.radio.standby := if keep.isSome then .onDemand else .alwaysOn }

theorem witness_DownEventEffects_cause :
    ∀ h ∈ [Health.trial, .up, .off, .failed], ((lined h .good true).pathRec .radio).health = h := by decide +kernel

theorem witness_SequencerTimerExpiries :
    (∀ n ∈ [2, 3], ∀ h ∈ [Health.down, .trial], (sequenced (some 0) none none n h).pmn.power.attach ≠ none ∧
      (sequenced (some 0) none none n h).pmn.power.retry = n ∧
      ((sequenced (some 0) none none n h).pathRec .radio).health = h) ∧
    (live .fibre).sdc.settings.radio.retry = 3 ∧ (sequenced none (some 0) none 0 .down).pmn.power.off ≠ none ∧
    (let s := sequenced none none (some 0) 0 .up
     s.pmn.power.keep ≠ none ∧ s.sdc.settings.radio.standby = .onDemand ∧ (s.pathRec .fibre).health = .up ∧
       s.swc.service = some .fibre ∧ s.pmn.power.phase = .powered) ∧
    (let s : State := { live .radio with pmn.power := ⟨.standby, none, none, some 0, 0⟩ }
     s.pmn.power.keep ≠ none ∧ s.swc.service ≠ some .fibre ∧ s.pmn.power.phase = .standby) ∧
    (live .fibre).pmn.power.attach = none := by decide +kernel

theorem witness_TicksExpireRecords :
    let s : State :=
      { live .radio with
        ple.deferralQ := [⟨0, 4, 0, 0⟩, ⟨1, 4, 1, 1⟩]
        clock.uptime := 60000 }
    s.rstn = true ∧ s.pcf.part = .active ∧ s.sdc.settings.timing.deferralAge ≠ 0 ∧ (s.ple.deferralQ.map (·.slot)).Nodup ∧
      (∀ r ∈ s.ple.deferralQ, r.slot < s.tsm.entries.length) ∧ (idle .config).pcf.part ≠ .active := by decide +kernel

theorem witness_QuietAndWaitExpiries :
    let s : State := { live .radio with swc.voice := ⟨true, some 0⟩, swc.emergency := ⟨true, some 0⟩, swc.wait := some 0 }
    s.rstn = true ∧ s.swc.voice.timer ≠ none ∧ s.swc.emergency.timer ≠ none ∧ s.swc.wait ≠ none ∧
      s.sdc.settings.timing.failbackWait ≠ 0 ∧ (live .radio).swc.voice.timer = none ∧
      (live .radio).swc.emergency.timer = none ∧ (live .radio).swc.wait = none := by decide +kernel

theorem witness_MainsAndRefill :
    (∀ m ∈ [MainsState.present, .falling 7, .absent], ∀ b ∈ [true, false],
      ({ lined .up .good b with umt.mains := m } : State).umt.mains = m ∧ (lined .up .good b).lines.mains = b ∧
        (lined .up .good b).rstn = true) ∧ (live .fibre).sdc.settings.radio.mainsConfirm ≠ 0 := by decide +kernel

theorem witness_EngineChoosesWork :
    let r : DeferralRec := ⟨0, 4, 0, 0⟩
    let q (p : Path) (deferred : List DeferralRec) (posted : List Nat) (scan : Option Scan) : State :=
      { live p with
        tsm := ⟨⟨.deferred, some 0, some 4, some 1500, none, none, none, none⟩ ::
          ⟨.posted, some 1, none, none, none, none, none, none⟩ :: List.replicate 30 freeEntry, 2, 0, 2⟩
        ple.deferralQ := deferred
        ple.placementQ := posted
        ple.scan := scan }
    (q .fibre [r] [1] none).orderOf 0 < (q .fibre [r] [1] none).slotOrder 1 ∧
    (q .radio [r] [1] none).ple.placementQ = [1] ∧ (q .radio [] [] none).ple.placementQ = [] ∧
    ({ q .radio [r] [] none with ple.rexPending := true } : State).ple.rexPending = true ∧
    (q .radio [r] [] (some ⟨[], none⟩)).ple.deferralQ = [] ++ r :: [] ∧
    (q .radio [r] [] (some ⟨[], none⟩)).actionOn .radio 4 = .pass ∧
    (q .radio [r] [] (some ⟨[], none⟩)).actionOn .radio 6 = .defer ∧
    ({ q .radio [r] [] (some ⟨[], none⟩) with umt.regime := .hard } : State).actionOn .radio 7 = .skip ∧
    (4 : Cls) ∈ (⟨[4], none⟩ : Scan).blocked ∧
    ¬ (q .radio [r] [] (some ⟨[], some 0⟩)).orderOf 0 < (q .radio [r] [] (some ⟨[], some 0⟩)).orderOf 0 := by decide +kernel

/-- A migrating state over a ring with one PLACED entry. -/
def migrating (c : Claim) (target : Option Path) (list : List MigrationItem) : State :=
  { placed .placed with
    swc.state := .migrating
    swc.target := some target
    swc.kind := some .failover
    swc.service := target
    swc.list := list
    ple.claim := c }

theorem witness_MigrationWalk :
    (∀ c ∈ [Claim.pending, .held], ∀ t ∈ [some Path.radio, none], (migrating c t [⟨0, 0⟩]).pcf.part = .active ∧
      (migrating c t [⟨0, 0⟩]).swc.state = .migrating ∧ (migrating c t [⟨0, 0⟩]).ple.op = none ∧
      (migrating c t [⟨0, 0⟩]).swc.step = none ∧ (migrating c t [⟨0, 0⟩]).ple.scan = none ∧
      (migrating c t [⟨0, 0⟩]).swc.list = [⟨0, 0⟩]) ∧
    ((placed .placed).entry 0).state = .placed ∧ ((placed .placed).entry 1).state ≠ .placed ∧
    (∀ f ∈ [Health.down, .up], ∀ t ∈ [some Path.radio, some .fibre, none],
      let s : State := { migrating .held t [] with pmn.recs.fibre.health := f }
      s.swc.list = [] ∧ s.ple.claim = .held ∧ (s.pathRec .fibre).health = f ∧ s.swc.service = t ∧
        (workStep s).isSome = true) ∧
    (let s : State := { migrating .held (some .radio) [] with pmn.recs.fibre.health := .down }
     (runWork s.workFuel { s with
        swc.state := .steady, swc.target := none, swc.kind := none, swc.step := none, ple.claim := .none }).ple.op =
       none) := by decide +kernel

/-! ### The invariants hold in a state with work in it, whose step goes on -/

theorem witness_BoundsKept : (placed .placed).Bounded ∧ ∃ t, step (placed .placed) = .next t :=
  ⟨{ migration := by decide +kernel, config := by decide +kernel, pool := by decide +kernel, deferral := by decide +kernel, arrivals := by decide +kernel, flaps := by decide +kernel,
     retry := by decide +kernel, trial := fun p => by cases p <;> decide +kernel,
     silence := fun p => by cases p <;> decide +kernel, downs := fun p => by cases p <;> decide +kernel,
     trials := fun p => by cases p <;> decide +kernel, streak := by decide +kernel, hold := by decide +kernel,
     failovers := by decide +kernel, failbacks := by decide +kernel, notices := by decide +kernel,
     paths := by decide +kernel, transfers := by decide +kernel, integrities := by decide +kernel,
     sub := by decide +kernel }, _, rfl⟩

theorem witness_ServicePathStaysUp : (live .radio).ServiceSound ∧ (idle .halted).ServiceSound := by
  refine ⟨⟨fun p => ?_, ?_, ?_, ?_, ?_, ?_⟩, ⟨fun p => ?_, ?_, ?_, ?_, ?_, ?_⟩⟩
  all_goals first | (cases p <;> decide +kernel) | decide +kernel

theorem witness_EmergencyNeverDeferred :
    ({ live .radio with ple.deferralQ := [⟨0, 4, 0, 0⟩] } : State).EmergencySound :=
  ⟨by decide +kernel, by decide +kernel⟩

theorem witness_EveryStepComesToRest : (placed .placed).Resting :=
  ⟨by decide +kernel, by decide +kernel, by decide +kernel⟩

theorem witness_HaltedMapsAreFrozen :
    (idle .halted).pcf.part = .halted ∧ Instr.farGrant.wf = true ∧ movesReset .farGrant = false ∧
      isReconfigure .farGrant = false ∧ lowersMeters .farGrant = false ∧ ∃ t, exec .farGrant (idle .halted) = .next t :=
  ⟨by decide +kernel, by decide +kernel, by decide +kernel, by decide +kernel, by decide +kernel, _, rfl⟩

end Sys2Proof.Tests
end

/-! SUPPORT. What the work of the part leaves alone: RSTN, the settle, the near side, every setting and the records of the
deferral queue, one lemma for each operation. -/

namespace Sys2Proof.Machine

/-- What the reports, the expiries and the switch's work leave alone: RSTN, the settle, the near side, the settings and the
deferral queue. -/
def State.lasting (s : State) : Bool × Timer × Nsi × Settings × List DeferralRec :=
  (s.rstn, s.settle, s.nsi, s.sdc.settings, s.ple.deferralQ)

/-! ### The radio power sequencer and the service path -/

theorem evalStandby_lasting (s : State) : (evalStandby s).lasting = s.lasting :=
  (congrArg State.lasting (evalStandby_frame s).1).trans rfl

theorem stopKeep_lasting (s : State) : (stopKeep s).lasting = s.lasting := evalStandby_lasting _

theorem startKeep_lasting (s : State) : (startKeep s).lasting = s.lasting := evalStandby_lasting _

theorem setService_lasting (s : State) (p : Option Path) : (setService s p).lasting = s.lasting :=
  (congrArg State.lasting (setService_frame s p).1).trans rfl

/-! ### The engine's operations that take no decision -/

theorem endOp_lasting (s : State) (b : Option Cls) : (endOp s b).lasting = s.lasting := by
  unfold endOp
  split
  · rfl
  · split
    · rfl
    · rfl
    · split
      · split <;> rfl
      · rfl

theorem abandonOp_lasting (s : State) : (abandonOp s).lasting = s.lasting := by
  unfold abandonOp
  split
  · rfl
  · exact endOp_lasting _ none

theorem claimEngine_lasting (s : State) : (claimEngine s).lasting = s.lasting := by
  have waiting : ∀ t : State, t.lasting = s.lasting →
      (match t.ple.op with
        | some o => if o.phase = OpPhase.waiting then abandonOp t else t
        | none => t).lasting = s.lasting := by
    intro t h
    split
    · split
      · exact (abandonOp_lasting t).trans h
      · exact h
    · exact h
  unfold claimEngine
  apply waiting
  split
  · rfl
  · split <;> rfl

/-! ### The switch controller's operations -/

theorem startMigration_lasting (s : State) (p : Option Path) (k : MigrationKind) :
    (startMigration s p k).lasting = s.lasting := by
  unfold startMigration
  refine (claimEngine_lasting _).trans ?_
  split
  · exact setService_lasting _ p
  · exact setService_lasting _ p

theorem testWait_lasting (s : State) : (testWait s).lasting = s.lasting := by
  unfold testWait
  split
  · exact startMigration_lasting _ _ _
  · rfl

theorem arrivalTrigger_lasting (s : State) : (arrivalTrigger s).lasting = s.lasting := by
  unfold arrivalTrigger
  split
  · split
    · exact startMigration_lasting _ _ _
    · split
      · exact startMigration_lasting _ _ _
      · rfl
  · rfl

theorem failbackTest_lasting (s : State) : (failbackTest s).lasting = s.lasting := by
  unfold failbackTest
  split
  · split
    · rfl
    · split
      · exact testWait_lasting _
      · rfl
  · rfl

theorem pathLeftUp_lasting (s : State) (p : Path) : (pathLeftUp s p).lasting = s.lasting := by
  unfold pathLeftUp
  split
  · split
    · split
      · exact startMigration_lasting _ _ _
      · exact startMigration_lasting _ _ _
    · split <;> rfl
  · rfl

theorem pathBecameUp_lasting (s : State) (p : Path) : (pathBecameUp s p).lasting = s.lasting := by
  unfold pathBecameUp
  split
  · exact (failbackTest_lasting _).trans (arrivalTrigger_lasting s)
  · exact arrivalTrigger_lasting s

/-! ### The path monitor -/

theorem flapAppend_lasting (s : State) : (flapAppend s).lasting = s.lasting := by
  have limited : ∀ (full : Prop) [Decidable full] (t : State), t.lasting = s.lasting →
      (if full then takeFault { t with swc.mode := .manual } .flapLimit (some .fibre) none else t).lasting = s.lasting := by
    intro full _ t h
    split
    · exact h
    · exact h
  exact limited _ _ rfl

theorem downEvent_lasting (s : State) (p : Path) (cause : DownCause) : (downEvent s p cause).lasting = s.lasting := by
  have reported : ∀ (up : Bool) (t : State), t.lasting = s.lasting →
      (if up then pathLeftUp t p else t).lasting = s.lasting := by
    intro up t h
    split
    · exact (pathLeftUp_lasting t p).trans h
    · exact h
  unfold downEvent
  apply reported
  cases p with
  | fibre => exact (evalStandby_lasting _).trans (flapAppend_lasting _)
  | radio => simp only; split <;> rfl

theorem causeWhileDown_lasting (s : State) (p : Path) (cause : DownCause) :
    (causeWhileDown s p cause).lasting = s.lasting := by
  unfold causeWhileDown
  simp only
  split <;> rfl

theorem applyCause_lasting (s : State) (p : Path) (cause : DownCause) : (applyCause s p cause).lasting = s.lasting := by
  unfold applyCause
  split
  · exact downEvent_lasting s p cause
  · exact downEvent_lasting s p cause
  · exact causeWhileDown_lasting s p cause
  · rfl
  · rfl

theorem terminalIndex_lasting (s : State) (p : Path) : (terminalIndex s p).lasting = s.lasting :=
  applyCause_lasting _ p _

theorem enterTrial_lasting (s : State) (p : Path) : (enterTrial s p).lasting = s.lasting := by
  unfold enterTrial
  simp only
  split <;> rfl

theorem becomeUp_lasting (s : State) (p : Path) : (becomeUp s p).lasting = s.lasting := by
  unfold becomeUp
  cases p with
  | fibre => exact (pathBecameUp_lasting _ _).trans (evalStandby_lasting _)
  | radio => exact pathBecameUp_lasting _ _

theorem judgeSilence_lasting (s : State) (p : Path) : (judgeSilence s p).lasting = s.lasting := by
  unfold judgeSilence
  simp only
  split
  · split
    · rfl
    · split
      · exact downEvent_lasting _ _ _
      · rfl
  · rfl

theorem judgeTrial_lasting (s : State) (p : Path) : (judgeTrial s p).lasting = s.lasting := by
  have tried : ∀ n : Nat, (let s1 := setRec s p { s.pathRec p with trial := n }
      if s.trialLength p ≤ n then becomeUp s1 p else s1).lasting = s.lasting := by
    intro n
    simp only
    split
    · exact becomeUp_lasting _ p
    · rfl
  unfold judgeTrial
  simp only
  split
  · exact tried _
  · rfl
  · rfl

theorem judge_lasting (s : State) (p : Path) : (judge s p).lasting = s.lasting := by
  unfold judge
  split
  · exact judgeSilence_lasting s p
  · exact judgeTrial_lasting s p
  · split
    · exact enterTrial_lasting s p
    · rfl
  · rfl
  · rfl

theorem badConfirm_lasting (s : State) (p : Path) : (badConfirm s p).lasting = s.lasting := applyCause_lasting _ p _

theorem lineFalls_lasting (s : State) (p : Path) : (lineFalls s p).lasting = s.lasting := by
  unfold lineFalls
  split
  · simp only
    split
    · exact badConfirm_lasting _ p
    · rfl
  · rfl
  · rfl

theorem lineRises_lasting (s : State) (p : Path) : (lineRises s p).lasting = s.lasting := by
  unfold lineRises
  split
  · rfl
  · rfl
  · exact enterTrial_lasting _ p

theorem stallExpires_lasting (s : State) (p : Path) : (stallExpires s p).lasting = s.lasting := by
  unfold stallExpires
  split
  · exact downEvent_lasting s p _
  · exact downEvent_lasting s p _
  · rfl
  · rfl
  · rfl

theorem powerCycle_lasting (s : State) : (powerCycle s).lasting = s.lasting := by
  have off : ∀ t : State, t.lasting = s.lasting → ({ t with pmn.power.off := some 0 } : State).lasting = s.lasting :=
    fun _ h => h
  unfold powerCycle
  apply off
  split
  · exact downEvent_lasting _ _ _
  · rfl

theorem attachExpires_lasting (s : State) : (attachExpires s).lasting = s.lasting := by
  unfold attachExpires
  simp only
  split
  · rfl
  · exact powerCycle_lasting _

theorem quietExpires_lasting (s : State) (a : Activity) : (quietExpires s a).lasting = s.lasting := by
  cases a with
  | voice => exact testWait_lasting _
  | emergency => exact testWait_lasting _

theorem waitExpires_lasting (s : State) : (waitExpires s).lasting = s.lasting := testWait_lasting _

/-! ### The usage meter -/

theorem prompt_lasting (s : State) : (prompt s).lasting = s.lasting := by
  unfold prompt
  split
  · split <;> rfl
  · rfl

theorem computeRegime_lasting (s : State) : (computeRegime s).lasting = s.lasting := by
  unfold computeRegime
  split
  · rfl
  · exact prompt_lasting _

theorem refill_lasting (s : State) : (refill s).lasting = s.lasting := by
  unfold refill
  simp only
  split
  · exact prompt_lasting _
  · rfl

theorem mainsAbsent_lasting (s : State) : (mainsAbsent s).lasting = s.lasting := computeRegime_lasting _

theorem mainsFalls_lasting (s : State) : (mainsFalls s).lasting = s.lasting := by
  unfold mainsFalls
  split
  · simp only
    split
    · exact mainsAbsent_lasting _
    · rfl
  · rfl
  · rfl

theorem mainsRises_lasting (s : State) : (mainsRises s).lasting = s.lasting := by
  unfold mainsRises
  split
  · rfl
  · rfl
  · exact computeRegime_lasting _

/-! ### The transmit slot map -/

theorem postLoop_lasting (n : Nat) (s : State) : (postLoop n s).2.lasting = s.lasting := by
  induction n generalizing s with
  | zero => rfl
  | succ n ih =>
    unfold postLoop
    simp only
    split
    · exact ih _
    · rfl

theorem takePost_lasting (s : State) (v : Word) : (takePost s v).lasting = s.lasting := by
  unfold takePost
  simp only
  split
  · exact postLoop_lasting _ s
  · exact postLoop_lasting _ s

theorem reclaimLoop_lasting (n : Nat) (s : State) : (reclaimLoop n s).2.lasting = s.lasting := by
  induction n generalizing s with
  | zero => rfl
  | succ n ih =>
    unfold reclaimLoop
    simp only
    split
    · exact ih _
    · rfl

theorem takeReclaim_lasting (s : State) (v : Word) : (takeReclaim s v).lasting = s.lasting := by
  unfold takeReclaim
  simp only
  split
  · exact reclaimLoop_lasting _ s
  · exact reclaimLoop_lasting _ s

theorem takeFetch_lasting (s : State) (p : Path) (ps : Nat) : (takeFetch s p ps).lasting = s.lasting := by
  unfold takeFetch
  simp only
  split
  · split <;> rfl
  · rfl

theorem cancelIf_lasting (s : State) (e : TxEntry) (i : Nat) : (cancelIf s e i).lasting = s.lasting := by
  unfold cancelIf
  split <;> rfl

theorem mirrorCompletion_lasting (s : State) (p : Path) (ps i : Nat) (w : Word) :
    (mirrorCompletion s p ps i w).lasting = s.lasting := by
  unfold mirrorCompletion
  simp only
  split
  · exact (computeRegime_lasting _).trans (cancelIf_lasting _ _ _)
  · exact cancelIf_lasting _ _ _

theorem takeCompletion_lasting (s : State) (p : Path) (ps : Nat) (w : Word) :
    (takeCompletion s p ps w).lasting = s.lasting := by
  unfold takeCompletion
  simp only
  split
  · split
    · exact mirrorCompletion_lasting s p ps _ w
    · rfl
  · split <;> rfl

theorem passSlot_lasting (s : State) (p : Path) (ps : Nat) : (passSlot s p ps).lasting = s.lasting := by
  unfold passSlot
  simp only
  split
  · rfl
  · split
    · split
      · exact (computeRegime_lasting _).trans (cancelIf_lasting _ _ _)
      · exact cancelIf_lasting _ _ _
    · rfl

theorem passLoop_lasting (p : Path) (n : Nat) (i : Word) (s : State) : (passLoop p n i s).lasting = s.lasting := by
  induction n generalizing i s with
  | zero => rfl
  | succ n ih => exact (ih _ _).trans (passSlot_lasting s p _)

/-! ### The receive merge unit -/

theorem requestHeader_lasting (s : State) (w : Nat) (v : Word) : (requestHeader s w v).lasting = s.lasting :=
  (congrArg State.lasting (requestHeader_spec s w v).1).trans rfl

theorem assignLoop_lasting (n : Nat) (s : State) : (assignLoop n s).2.lasting = s.lasting := by
  induction n generalizing s with
  | zero => rfl
  | succ n ih =>
    unfold assignLoop
    split
    · rfl
    · split
      · exact ih _
      · rfl

theorem assignRun_lasting (s : State) : (assignRun s).lasting = s.lasting := by
  unfold assignRun
  simp only
  split
  · exact assignLoop_lasting _ s
  · exact (requestHeader_lasting _ _ _).trans (assignLoop_lasting _ s)

theorem takeRxProducer_lasting (s : State) (p : Path) (v : Word) : (takeRxProducer s p v).lasting = s.lasting := by
  unfold takeRxProducer
  simp only
  split
  · split
    · rfl
    · exact assignRun_lasting _
  · exact terminalIndex_lasting s p

theorem releaseLoop_lasting (n : Nat) (s : State) : (releaseLoop n s).lasting = s.lasting := by
  induction n generalizing s with
  | zero => rfl
  | succ n ih =>
    unfold releaseLoop
    simp only
    split
    · exact ih _
    · exact ih _

theorem writeBack_lasting (old s : State) (p : Path) : (writeBack old s p).lasting = s.lasting := by
  unfold writeBack
  split
  · rfl
  · exact requestHeader_lasting _ _ _

theorem takeRelease_lasting (s : State) (v : Word) : (takeRelease s v).lasting = s.lasting := by
  unfold takeRelease
  refine (assignRun_lasting _).trans ((writeBack_lasting _ _ _).trans ((writeBack_lasting _ _ _).trans ?_))
  split
  · exact releaseLoop_lasting _ s
  · exact releaseLoop_lasting _ s

/-! ### Timers brought in line and the entry into HALTED -/

theorem syncStreak_lasting (s : State) : (syncStreak s).lasting = s.lasting :=
  (congrArg State.lasting (syncStreak_frame s)).trans rfl

theorem syncTimers_lasting (s : State) : (syncTimers s).lasting = s.lasting :=
  (congrArg State.lasting (syncTimers_inLine s)).trans rfl

theorem enterHalted_lasting (s : State) : (enterHalted s).lasting = s.lasting :=
  (syncTimers_lasting _).trans (setService_lasting _ none)

theorem takeIntegrity_lasting (s : State) (c : FaultCause) (p : Option Path) (i : Option Nat) :
    (takeIntegrity s c p i).lasting = s.lasting := by
  unfold takeIntegrity
  simp only
  split
  · exact enterHalted_lasting _
  · exact enterHalted_lasting _
  · rfl
  · rfl

theorem partTimeout_lasting (s : State) (a : Access) : (partTimeout s a).lasting = s.lasting := by
  unfold partTimeout
  split
  · exact takeIntegrity_lasting _ _ _ _
  · split
    · exact takeIntegrity_lasting _ _ _ _
    · simp only
      split <;> rfl

/-! ### Completions of the part's far cycles -/

theorem retrigger_lasting (s : State) (cls : Cls) : (retrigger s cls).lasting = s.lasting := by
  unfold retrigger
  split
  · rfl
  · split
    · rfl
    · split <;> rfl

theorem publish_lasting (s : State) (o : Operation) : (publish s o).lasting = s.lasting :=
  (endOp_lasting _ none).trans ((retrigger_lasting _ _).trans (requestHeader_lasting _ _ _))

theorem withdrawn_lasting (s : State) (i : Nat) : (withdrawn s i).lasting = s.lasting := by
  have unmapped : ∀ t : State, t.lasting = s.lasting →
      (match t.ple.claim, t.swc.target with
        | .held, some (some p) => beginOp t i .reDecision p
        | _, _ => requeue { t with swc.step := none } i).lasting = s.lasting := by
    intro t h
    split
    · exact h
    · exact h
  unfold withdrawn
  apply unmapped
  split <;> rfl

theorem serviceWriteDone_lasting (s : State) (a : Access) : (serviceWriteDone s a).lasting = s.lasting := by
  unfold serviceWriteDone
  split <;> rfl

theorem startTake_lasting (s : State) (w : Nat) (v : Word) : (startTake s w v).lasting = s.lasting := by
  unfold startTake
  split
  case h_2 => split <;> rfl
  all_goals rfl

end Sys2Proof.Machine

/-! SUPPORT. No emergency descriptor is deferred (R13, R52): what the engine, the near bus, the far port and the setting
cycles do to the deferral queue and to the policy of class 1. -/

namespace Sys2Proof.Machine

/-! ### What the engine's decisions leave alone -/

/-- The engine's decisions leave alone RSTN, the settle, the near side and the settings, and bring no EMERGENCY VOICE record
into the deferral queue while class 1 is not metered. -/
structure EngineKept (s t : State) : Prop where
  rstn : t.rstn = s.rstn
  settle : t.settle = s.settle
  nsi : t.nsi = s.nsi
  settings : t.sdc.settings = s.sdc.settings
  records : (s.policyOf 1).metered = false → ∀ r ∈ t.ple.deferralQ, r ∈ s.ple.deferralQ ∨ r.cls ≠ 1

theorem lasting_iff (s t : State) :
    t.lasting = s.lasting ↔ t.rstn = s.rstn ∧ t.settle = s.settle ∧ t.nsi = s.nsi ∧ t.sdc.settings = s.sdc.settings ∧
      t.ple.deferralQ = s.ple.deferralQ := by
  simp [State.lasting]

theorem policyOf_settings {s t : State} (h : t.sdc.settings = s.sdc.settings) (c : Cls) : t.policyOf c = s.policyOf c := by
  unfold State.policyOf; rw [h]

theorem EngineKept.of_lasting {s t : State} (h : t.lasting = s.lasting) : EngineKept s t := by
  obtain ⟨rstn, settle, nsi, settings, queue⟩ := (lasting_iff s t).1 h
  exact ⟨rstn, settle, nsi, settings, fun _ r hr => .inl (queue ▸ hr)⟩

theorem EngineKept.refl (s : State) : EngineKept s s := .of_lasting rfl

theorem EngineKept.trans {s t u : State} (h : EngineKept s t) (k : EngineKept t u) : EngineKept s u where
  rstn := k.rstn.trans h.rstn
  settle := k.settle.trans h.settle
  nsi := k.nsi.trans h.nsi
  settings := k.settings.trans h.settings
  records := by
    intro unmetered r hr
    rcases k.records (by rw [policyOf_settings h.settings]; exact unmetered) r hr with old | other
    · exact h.records unmetered r old
    · exact .inr other

theorem EngineKept.then_lasting {s t u : State} (h : EngineKept s t) (k : u.lasting = t.lasting) : EngineKept s u :=
  h.trans (.of_lasting k)

theorem EngineKept.from_lasting {s t u : State} (k : EngineKept t u) (h : t.lasting = s.lasting) : EngineKept s u :=
  (EngineKept.of_lasting h).trans k

/-- Taking a record out of the deferral queue adds none. -/
theorem removeRecord_kept (s : State) (i : Nat) : EngineKept s (removeRecord s i) :=
  ⟨rfl, rfl, rfl, rfl, fun _ _ hr => .inl ((List.mem_filter.1 hr).1)⟩

theorem EngineKept.of_removed {s t : State} (i : Nat) (h : t.lasting = (removeRecord s i).lasting) : EngineKept s t :=
  (removeRecord_kept s i).then_lasting h

/-! ### The decisions (R50 to R55) -/

/-- Class 1 costs nothing while it is not metered (R53). -/
theorem cost_unmetered (s : State) (p : Path) (len : Word) (h : (s.policyOf 1).metered = false) : s.cost p 1 len = 0 := by
  cases p with
  | fibre => rfl
  | radio =>
    show (if (s.policyOf 1).metered then _ else 0) = 0
    rw [h]
    rfl

/-- Only the record of the entry itself joins the deferral queue (R55). -/
theorem deferEntry_kept (s : State) (i : Nat)
    (h : (s.policyOf 1).metered = false → (s.entry i).cls.getD 0 ≠ 1) : EngineKept s (deferEntry s i) := by
  unfold deferEntry
  simp only
  split
  · refine ⟨rfl, rfl, rfl, rfl, fun unmetered r hr => ?_⟩
    rcases (mem_insertBy _ _ r _).1 hr with rfl | old
    · exact .inr (h unmetered)
    · exact .inl old
  · exact .of_lasting rfl

/-- The credit test defers only what costs something, and class 1 costs nothing (R53). -/
theorem creditAndRing_kept (s : State) (o : Operation) : EngineKept s (creditAndRing s o) := by
  unfold creditAndRing
  simp only
  split
  · rename_i dear
    refine EngineKept.then_lasting (deferEntry_kept s o.slot fun unmetered emergency => ?_) (endOp_lasting _ _)
    rw [emergency, cost_unmetered s o.target _ unmetered] at dear
    exact Nat.not_lt_zero _ dear
  · split
    · exact .of_lasting rfl
    · split
      · exact .of_lasting (abandonOp_lasting s)
      · exact .of_lasting rfl

/-- The action of class 1 is PASS towards either path (R52). -/
theorem action_emergency (s : State) (p : Path) : s.action p 1 = .pass := by cases p <;> rfl

/-- The decision steps send class 1 back to the placement queue or on to its copy, never to the deferral queue. -/
theorem decideOp_kept (s : State) (o : Operation) : EngineKept s (decideOp s o) := by
  unfold decideOp
  simp only
  split
  · exact creditAndRing_kept s o
  · split
    · exact .of_lasting (endOp_lasting _ none)
    · split
      · split
        · exact .of_lasting (abandonOp_lasting s)
        · rename_i other
          exact (deferEntry_kept s o.slot fun _ => other).then_lasting (endOp_lasting _ _)
      · split
        · exact creditAndRing_kept s o
        · rename_i deferred
          refine EngineKept.then_lasting (deferEntry_kept s o.slot fun _ emergency => ?_) (endOp_lasting _ _)
          rw [emergency, action_emergency] at deferred
          exact absurd deferred (by decide)
        · exact .of_lasting (endOp_lasting _ none)

/-! ### The zero-time work -/

theorem scanStep_kept (s : State) (c : Scan) (p : Path) : EngineKept s (scanStep s c p) := by
  unfold scanStep
  split
  · exact .of_lasting rfl
  · rename_i r _
    simp only
    split
    · exact .of_lasting rfl
    · split
      · exact .of_removed r.slot rfl
      · exact .of_lasting rfl
      · split
        · exact .of_lasting rfl
        · exact .of_removed r.slot rfl

theorem engineStep_kept (s t : State) (h : engineStep s = some t) : EngineKept s t := by
  unfold engineStep at h
  split at h
  · split at h
    · injection h with h; subst h; exact scanStep_kept s _ _
    · split at h
      · injection h with h; subst h; exact .of_lasting rfl
      · split at h
        · split at h
          · injection h with h; subst h; exact .of_removed _ rfl
          · split at h
            · exact absurd h (by simp)
            · injection h with h; subst h; exact .of_lasting rfl
        · injection h with h; subst h; exact .of_lasting rfl
        · exact absurd h (by simp)
  · exact absurd h (by simp)

theorem runEngine_kept (n : Nat) (s : State) : EngineKept s (runEngine n s) := by
  induction n generalizing s with
  | zero => exact .refl s
  | succ n ih =>
    unfold runEngine
    split
    · exact .refl s
    · rename_i t h
      exact (engineStep_kept s t h).trans (ih t)

theorem settleEngine_kept (s : State) : EngineKept s (settleEngine s) := runEngine_kept _ s

theorem raiseAlert_lasting (s : State) (a : Alert) : (raiseAlert s a).lasting = s.lasting := rfl

theorem endMigration_kept (s : State) : EngineKept s (endMigration s) := by
  have counted : ∀ t : State, (match s.swc.kind with
      | some .failover => { t with swc.failovers := satInc 65535 t.swc.failovers }
      | some .failback => { t with swc.failbacks := satInc 65535 t.swc.failbacks }
      | some .arrival => t
      | some .forced => t
      | none => t).lasting = t.lasting := by
    intro t
    split <;> rfl
  have triggered : ∀ t : State, (if t.swc.service = none then arrivalTrigger t
      else if t.swc.service = some .radio then failbackTest t else t).lasting = t.lasting := by
    intro t
    split
    · exact arrivalTrigger_lasting t
    · split
      · exact failbackTest_lasting t
      · rfl
  have chosen : EngineKept s _ := (settleEngine_kept
    { s with
      swc.state := .steady
      swc.target := none
      swc.kind := none
      swc.step := none
      ple.claim := .none }).from_lasting rfl
  have scanned := (chosen.then_lasting (prompt_lasting _)).trans (settleEngine_kept _)
  unfold endMigration
  refine EngineKept.then_lasting ?_ ((triggered _).trans (counted _))
  by_cases radio : s.swc.target.getD none = some .radio
  · simp only [radio, if_true]
    exact scanned.then_lasting (raiseAlert_lasting _ _)
  · simp only [radio, if_false]
    exact chosen.then_lasting (raiseAlert_lasting _ _)

theorem examine_lasting (s : State) (m : MigrationItem) (rest : List MigrationItem) :
    (examine s m rest).lasting = s.lasting := by
  unfold examine
  simp only
  split <;> rfl

theorem workStep_kept (s t : State) (h : workStep s = some t) : EngineKept s t := by
  unfold workStep at h
  split at h
  · exact engineStep_kept s t h
  · split at h
    · injection h with h; subst h; exact .of_lasting rfl
    · exact absurd h (by simp)
  · split at h
    · split at h
      · injection h with h; subst h; exact endMigration_kept s
      · injection h with h; subst h; exact .of_lasting (examine_lasting s _ _)
    · exact absurd h (by simp)

theorem runWork_kept (n : Nat) (s : State) : EngineKept s (runWork n s) := by
  induction n generalizing s with
  | zero => exact .refl s
  | succ n ih =>
    unfold runWork
    split
    · exact .refl s
    · rename_i t h
      exact (workStep_kept s t h).trans (ih t)

theorem settleWork_kept (s : State) : EngineKept s (settleWork s) :=
  (runWork_kept _ s).then_lasting (syncTimers_lasting _)

/-- An operation that leaves the lasting parts alone, with the work it causes. -/
theorem EngineKept.settled {s t : State} (h : EngineKept s t) : EngineKept s (settleWork t) := h.trans (settleWork_kept t)

/-! ### Terminals' and controllers' words at their owners -/

theorem endRingWait_kept (s : State) (p : Path) : EngineKept s (endRingWait s p) := by
  unfold endRingWait
  split
  · split
    · exact creditAndRing_kept s _
    · exact .refl s
  · exact .refl s

theorem takeTxConsumer_kept (s : State) (p : Path) (v : Word) : EngineKept s (takeTxConsumer s p v) := by
  unfold takeTxConsumer
  simp only
  split
  · split
    · exact .of_lasting (passLoop_lasting p _ _ s)
    · exact (endRingWait_kept _ p).from_lasting (passLoop_lasting p _ _ s)
  · exact .of_lasting (terminalIndex_lasting s p)

theorem takeHeader_kept (s : State) (w : Nat) (v : Word) : EngineKept s (takeHeader s w v) := by
  unfold takeHeader
  split
  · exact .of_lasting (takePost_lasting s v)
  · exact .of_lasting (takeReclaim_lasting s v)
  · exact .of_lasting (takeRelease_lasting s v)
  · exact takeTxConsumer_kept s _ v
  · exact .of_lasting (takeRxProducer_lasting s _ v)
  · exact takeTxConsumer_kept s _ v
  · exact .of_lasting (takeRxProducer_lasting s _ v)
  · exact .refl s

/-- The owner of a word raises LATE_WRITE for it, or leaves the lasting parts alone. -/
theorem takeWord_cases (s : State) (c : NearCycle) (a : Addr) (v : Word) :
    (∃ i, takeWord s c a v = lateWrite s c i) ∨ EngineKept s (takeWord s c a v) := by
  unfold takeWord
  split
  · split
    · split
      · exact .inl ⟨_, rfl⟩
      · exact .inr (.refl s)
    · split
      · exact .inr (takeHeader_kept s _ v)
      · exact .inr (.refl s)
    · split
      · exact .inr (.of_lasting (takeFetch_lasting s _ _))
      · exact .inr (.refl s)
    · split
      · exact .inr (.of_lasting (takeCompletion_lasting s _ _ v))
      · exact .inr (.refl s)
    · split
      · exact .inr (.of_lasting (computeRegime_lasting _))
      · exact .inr (.refl s)
    · exact .inr (.refl s)
  · exact .inr (.refl s)

/-! ### The invariant -/

theorem EngineKept.sound {s t : State} (k : EngineKept s t) (h : s.EmergencySound) : t.EmergencySound where
  unmetered := by rw [policyOf_settings k.settings]; exact h.unmetered
  absent := by
    intro r hr
    rcases k.records h.unmetered r hr with old | other
    · exact h.absent r old
    · exact other

/-- The invariant rests on the policies and the deferral queue alone. -/
theorem State.EmergencySound.congr {s t : State} (h : s.EmergencySound)
    (policy : t.sdc.settings.policy = s.sdc.settings.policy) (queue : t.ple.deferralQ = s.ple.deferralQ) :
    t.EmergencySound where
  unmetered := by unfold State.policyOf; rw [policy]; exact h.unmetered
  absent := by rw [queue]; exact h.absent

theorem settleWork_sound {s : State} (h : s.EmergencySound) : (settleWork s).EmergencySound := (settleWork_kept s).sound h

/-- An empty queue under the policies of a sound state. -/
theorem State.EmergencySound.emptied {s t : State} (h : s.EmergencySound)
    (policy : t.sdc.settings.policy = s.sdc.settings.policy) (queue : t.ple.deferralQ = []) : t.EmergencySound where
  unmetered := by unfold State.policyOf; rw [policy]; exact h.unmetered
  absent := by rw [queue]; exact fun _ hr => absurd hr List.not_mem_nil

/-! ### Near words -/

theorem finishWord_sound {s : State} (h : s.EmergencySound) : (finishWord s).EmergencySound := by
  unfold finishWord
  split
  · exact h
  · split
    · exact h.congr rfl rfl
    · exact h.congr rfl rfl

theorem closeRun_sound {s : State} (h : s.EmergencySound) : (closeRun s).EmergencySound := by
  unfold closeRun
  split
  · exact h.congr rfl rfl
  all_goals exact h

theorem waitWord_sound {s : State} (c : NearCycle) (v : Word) (h : s.EmergencySound) :
    (waitWord s c v).EmergencySound := by
  unfold waitWord
  split
  · exact h.congr rfl rfl
  · exact h

/-- The near data lines of a read. -/
theorem dataOut_sound {s : State} (d : Dir) (v : Word) (h : s.EmergencySound) :
    (if d = .read then { s with nsi.dataOut := v } else s).EmergencySound := by
  split
  · exact h.congr rfl rfl
  · exact h

theorem transferWord_sound {s : State} (d : Dir) (fa : Addr) (v : Word) (h : s.EmergencySound) :
    (transferWord s d fa v).EmergencySound :=
  (finishWord_sound (dataOut_sound d v h)).congr rfl rfl

theorem takeWord_sound {s : State} (c : NearCycle) (a : Addr) (v : Word) (h : s.EmergencySound) :
    (takeWord s c a v).EmergencySound := by
  rcases takeWord_cases s c a v with ⟨i, late⟩ | kept
  · rw [late]
    unfold lateWrite
    split
    · exact h.congr rfl rfl
    · exact h
  · exact kept.sound h

theorem grantWord_sound {s : State} (c : NearCycle) (a fa : Addr) (v : Word) (fhold : Bool) (h : s.EmergencySound) :
    (grantWord s c a fa v fhold).EmergencySound := by
  have taken : (takeWord { s with fsp.holdTimer := 0, fsp.pins := s.nearPins c fa v } c a v).EmergencySound :=
    takeWord_sound c a v (h.congr rfl rfl)
  unfold grantWord
  simp only
  split
  · exact taken.congr rfl rfl
  · exact transferWord_sound _ _ _ taken

/-- A word arbitrated at a port is granted with the streak charged, or waits. -/
theorem arbitrated_sound {s : State} (c : NearCycle) (a fa : Addr) (v : Word) (fhold : Bool) (h : s.EmergencySound) :
    (if s.nearWins then grantWord (chargeNear s) c a fa v fhold else waitWord s c v).EmergencySound := by
  split
  · exact grantWord_sound _ _ _ _ _ (h.congr rfl rfl)
  · exact waitWord_sound _ _ h

theorem requestWord_sound {s : State} (c : NearCycle) (a fa : Addr) (v : Word) (fhold : Bool) (h : s.EmergencySound) :
    (requestWord s c a fa v fhold).EmergencySound := by
  unfold requestWord
  split
  · exact waitWord_sound _ _ h
  · exact h
  · split
    · exact grantWord_sound _ _ _ _ _ h
    · exact arbitrated_sound c a fa v fhold (closeRun_sound h)
  · exact arbitrated_sound c a fa v fhold h
  · exact arbitrated_sound c a fa v fhold (h.congr rfl rfl)

theorem nearWord_sound {s : State} (v : Word) (fhold : Bool) (h : s.EmergencySound) :
    (nearWord s v fhold).EmergencySound := by
  unfold nearWord
  split
  · exact h
  · split
    · exact h
    · split
      · exact finishWord_sound (dataOut_sound _ _ h)
      · split
        · split
          · exact h
          · exact transferWord_sound _ _ _ h
        · simp only
          split
          · exact finishWord_sound (closeRun_sound (h.congr rfl rfl))
          · exact waitWord_sound _ _ (closeRun_sound h)
          · exact requestWord_sound _ _ _ _ _ h
          · exact requestWord_sound _ _ _ _ _ h

theorem nearGrant_sound {s : State} (v : Word) (fhold : Bool) (h : s.EmergencySound) :
    (nearGrant s v fhold).EmergencySound := by
  unfold nearGrant
  split
  · exact settleWork_sound (nearWord_sound v fhold h)
  · exact h

theorem beginCycle_sound {s : State} (c : NearCycle) (h : s.EmergencySound) : (beginCycle s c).EmergencySound := by
  unfold beginCycle
  split
  · split
    · exact h.congr rfl rfl
    · exact h
  · split
    · exact h.congr rfl rfl
    · exact h

theorem endCycle_sound {s : State} (h : s.EmergencySound) : (endCycle s).EmergencySound := by
  unfold endCycle
  split
  · simp only
    split <;> exact h.congr rfl rfl
  · exact h.congr rfl rfl

/-! ### The far port -/

theorem grantNear_sound {s : State} (h : s.EmergencySound) : (grantNear s).EmergencySound := by
  unfold grantNear
  split
  · exact grantWord_sound _ _ _ _ _ (h.congr rfl rfl)
  · exact h

theorem grantWork_sound {s : State} (h : s.EmergencySound) : (grantWork s).EmergencySound := by
  unfold grantWork
  split
  · split
    · exact h.congr rfl rfl
    · exact h
  · split
    · split
      · exact h.congr rfl rfl
      · exact h
    · exact h

theorem grantPort_sound {s : State} (h : s.EmergencySound) : (grantPort s).EmergencySound := by
  have freed : ({ s with fsp.port := .free } : State).EmergencySound := h.congr rfl rfl
  unfold grantPort
  split
  · simp only
    split
    · exact h.congr rfl rfl
    · split
      · exact settleWork_sound (grantNear_sound freed)
      · exact grantWork_sound freed
  · exact h

theorem farGrant_sound {s : State} (h : s.EmergencySound) :
    (if s.rstn then syncStreak (grantPort s) else s).EmergencySound := by
  split
  · exact (EngineKept.of_lasting (syncStreak_lasting _)).sound (grantPort_sound h)
  · exact h

theorem killCycle_sound {s : State} (w : NearFlight) (h : s.EmergencySound) : (killCycle s w).EmergencySound :=
  finishWord_sound ((dataOut_sound w.dir 0xFFFF h).congr rfl rfl)

theorem nearTimeout_lasting (s : State) (w : NearFlight) : (nearTimeout s w).lasting = s.lasting := rfl

theorem holdLimit_sound {s : State} (h : s.EmergencySound) : (holdLimit s).EmergencySound := by
  unfold holdLimit
  split
  · exact h
  · exact h
  · exact (EngineKept.of_lasting (nearTimeout_lasting _ _)).sound (killCycle_sound _ (h.congr rfl rfl))
  · exact h.congr rfl rfl
  · exact (EngineKept.of_lasting (partTimeout_lasting _ _)).sound (h.congr rfl rfl)

theorem completeAccess_kept (s : State) (k : AccessKind) (act : State → Access → State)
    (acts : ∀ u a, EngineKept u (act u a)) : EngineKept s (completeAccess s k act) := by
  unfold completeAccess
  split
  · exact .refl s
  · simp only
    split
    · exact (acts _ _).from_lasting rfl
    · exact .of_lasting rfl

theorem takeRead_lasting (s : State) (i : Nat) (d : Descriptor) : (takeRead s i d).lasting = s.lasting := rfl

theorem readDone_kept (d : Descriptor) (s : State) (a : Access) : EngineKept s (readDone d s a) := by
  unfold readDone
  split
  · exact .refl s
  · rename_i o _
    exact ((decideOp_kept _ o).from_lasting (takeRead_lasting s o.slot d)).settled

theorem copyDone_kept (s : State) (a : Access) : EngineKept s (copyDone s a) := by
  unfold copyDone
  split
  · exact .refl s
  · exact (EngineKept.of_lasting (publish_lasting s _)).settled

theorem withdrawalDone_kept (s : State) (a : Access) : EngineKept s (withdrawalDone s a) := by
  unfold withdrawalDone
  split
  · exact .refl s
  · exact (EngineKept.of_lasting (withdrawn_lasting s _)).settled

theorem becomeActive_kept (s : State) : EngineKept s (becomeActive s) := by
  have served : ∀ (t : State) (p : Option Path),
      (if p = none then takeFault (setService t p) .noPath none none else setService t p).lasting = t.lasting := by
    intro t p
    split
    · exact setService_lasting t p
    · exact setService_lasting t p
  unfold becomeActive
  simp only
  exact EngineKept.settled (.of_lasting ((served _ _).trans rfl))

theorem startWriteDone_kept (s : State) (a : Access) : EngineKept s (startWriteDone s a) := by
  unfold startWriteDone
  split
  · exact .of_lasting rfl
  · exact .of_lasting rfl
  · exact .of_lasting rfl
  · exact .of_lasting rfl
  · split
    · exact becomeActive_kept s
    · exact .refl s

theorem startReadDone_lasting (v : Word) (s : State) (a : Access) : (startReadDone v s a).lasting = s.lasting :=
  startTake_lasting s a.hdr v

/-! ### Timers and lines -/

theorem expiry_kept (s : State) (runs : Bool) (act : State → State) (acts : ∀ u, EngineKept u (act u)) :
    EngineKept s (expiry s runs act) := by
  unfold expiry
  split
  · exact (acts s).settled
  · exact .refl s

theorem heartbeatEnd_kept (s : State) : EngineKept s (heartbeatEnd s) := by
  have restarted : ∀ u : State,
      ({ clearMark (clearMark u .fibre) .radio with
        pmn.beat := 0
        pmn.beatLen := (clearMark (clearMark u .fibre) .radio).sdc.settings.timing.heartbeat } : State).lasting =
        u.lasting := fun _ => rfl
  have judged := (EngineKept.of_lasting (judge_lasting s .fibre)).settled
  exact (judged.then_lasting (judge_lasting _ .radio)).then_lasting (restarted _)

theorem moveLine_sound {s : State} (p : Path) (level : Bool) (h : s.EmergencySound) :
    (moveLine s p level).EmergencySound := by
  unfold moveLine
  split
  · exact h
  · simp only
    split
    · apply settleWork_sound
      split
      · exact (EngineKept.of_lasting (lineRises_lasting _ p)).sound (h.congr rfl rfl)
      · exact (EngineKept.of_lasting (lineFalls_lasting _ p)).sound (h.congr rfl rfl)
    · exact h.congr rfl rfl

theorem moveMains_sound {s : State} (level : Bool) (h : s.EmergencySound) : (moveMains s level).EmergencySound := by
  unfold moveMains
  split
  · exact h
  · simp only
    split
    · apply settleWork_sound
      split
      · exact (EngineKept.of_lasting (mainsRises_lasting _)).sound (h.congr rfl rfl)
      · exact (EngineKept.of_lasting (mainsFalls_lasting _)).sound (h.congr rfl rfl)
    · exact h.congr rfl rfl

/-- Records that expire leave the queue and bring none (R68). -/
theorem deferralTick_kept (s : State) : EngineKept s (deferralTick s) := by
  have expired : ∀ (l : List DeferralRec) (t : State), EngineKept t (l.foldl expireRecord t) := by
    intro l
    induction l with
    | nil => exact .refl
    | cons r rest ih => exact fun t => (EngineKept.of_removed (t := expireRecord t r) r.slot rfl).trans (ih _)
  unfold deferralTick
  simp only
  split
  · exact (expired _ _).from_lasting rfl
  · exact .of_lasting rfl

/-! ### Setting cycles -/

theorem refuse_sound {s : State} (c : RefusalCause) (tag : Tag) (addr : Addr) (dir : Dir) (h : s.EmergencySound) :
    (refuse s c tag addr dir).EmergencySound := by
  unfold refuse
  simp only
  split <;> exact h.congr rfl rfl

/-- A setting write keeps the invariant where its taking does, of a write that passes the decoder's tests. -/
theorem writeCycle_sound {s : State} (tag : Tag) (addr : Addr) (v : Word) (owner : State → Option RefusalCause)
    (take : State → State) (h : s.EmergencySound)
    (takes : ∀ u, judgeWrite u tag addr v = none → u.EmergencySound → (take u).EmergencySound) :
    (writeCycle s tag addr v owner take).EmergencySound := by
  have ended : ({ s with nsi.near := none } : State).EmergencySound := h.congr rfl rfl
  unfold writeCycle
  split
  · simp only
    split
    · exact ended
    · split
      · exact refuse_sound _ _ _ _ ended
      · rename_i judged
        split
        · exact refuse_sound _ _ _ _ ended
        · exact takes _ judged ended
  · exact h

theorem readCycle_sound {s : State} (tag : Tag) (addr : Addr) (h : s.EmergencySound) :
    (readCycle s tag addr).EmergencySound := by
  have latched : ∀ (t : State) (g i x : Nat), t.EmergencySound → (takeReadEffect t g i x).EmergencySound := by
    intro t g i x ht
    unfold takeReadEffect
    split
    · exact ht.congr rfl rfl
    · split
      · exact ht.congr rfl rfl
      · exact ht
    · split
      · exact ht.congr rfl rfl
      · exact ht
    · split
      · exact ht.congr rfl rfl
      · exact ht
    · split
      · exact ht.congr rfl rfl
      · exact ht
    · split
      · exact ht.congr rfl rfl
      · exact ht
    · exact ht
  unfold readCycle
  split
  · simp only
    split
    · exact h.congr rfl rfl
    · split
      · exact refuse_sound _ _ _ _ (h.congr rfl rfl)
      · exact (latched { s with nsi.near := none } _ _ _ (h.congr rfl rfl)).congr rfl rfl
  · exact h

theorem burstCycle_sound {s : State} (tag : Tag) (addr : Addr) (dir : Dir) (h : s.EmergencySound) :
    (burstCycle s tag addr dir).EmergencySound := by
  unfold burstCycle
  split
  · simp only
    split
    · split <;> exact h.congr rfl rfl
    · exact refuse_sound _ _ _ _ (h.congr rfl rfl)
  · exact h

/-! ### Taken settings -/

theorem expireIf_kept (due : Bool) (act : State → State) (s : State) (acts : (act s).lasting = s.lasting) :
    EngineKept s (expireIf due act s) := by
  unfold expireIf
  split
  · exact (EngineKept.of_lasting acts).settled
  · exact .refl s

theorem afterTiming_kept (s : State) (i : Nat) : EngineKept s (afterTiming s i) := by
  unfold afterTiming
  split
  · exact expireIf_kept _ _ s (badConfirm_lasting s _)
  · exact expireIf_kept _ _ s (badConfirm_lasting s _)
  · exact ((EngineKept.of_lasting (syncTimers_lasting s)).trans
      (expireIf_kept _ _ _ (stallExpires_lasting _ _))).trans (expireIf_kept _ _ _ (stallExpires_lasting _ _))
  · exact expireIf_kept _ _ s (quietExpires_lasting s _)
  · exact expireIf_kept _ _ s (quietExpires_lasting s _)
  · exact expireIf_kept _ _ s (waitExpires_lasting s)
  · exact .refl s

theorem afterRadio_kept (s : State) (i : Nat) : EngineKept s (afterRadio s i) := by
  unfold afterRadio
  split
  · exact expireIf_kept _ _ s (attachExpires_lasting s)
  · split
    · exact .of_lasting rfl
    · exact .refl s
  · split
    · exact .of_lasting (stopKeep_lasting s)
    · exact .refl s
  · exact expireIf_kept _ _ s (mainsAbsent_lasting s)
  · exact .refl s

theorem resizeTables_lasting (s : State) (i : Nat) : (resizeTables s i).lasting = s.lasting := by
  unfold resizeTables
  split <;> rfl

/-- No value that class 1 is given makes it metered: 1 is refused and any other stands for 0 (R13, R178). -/
theorem storePolicy_emergency (p : ClassPolicy) (i : Nat) (v : Word) (hp : p.metered = false)
    (allowed : classOneForbids 2 i 1 v.toNat = false) : (storePolicy p 1 i v).metered = false := by
  unfold storePolicy
  split
  case h_7 =>
    have other : v.toNat ≠ 1 := by
      intro one
      simp [classOneForbids, one] at allowed
    show meteredOf v.toNat false = false
    unfold meteredOf
    split
    · rfl
    · contradiction
    · rfl
  all_goals exact hp

/-- A taken POLICY write leaves class 1 unmetered. -/
theorem storedPolicy_emergency (l : List ClassPolicy) (x i : Nat) (v : Word)
    (h : (l.getD 1 (defaultPolicy 1)).metered = false) (allowed : classOneForbids 2 i x v.toNat = false) :
    ((l.set x (storePolicy (l.getD x (defaultPolicy x)) x i v)).getD 1 (defaultPolicy 1)).metered = false := by
  by_cases one : x = 1
  · subst one
    by_cases known : 1 < l.length
    · rw [List.getD_eq_getElem?_getD, List.getElem?_set_self known]
      exact storePolicy_emergency _ i v h allowed
    · rw [List.set_eq_of_length_le (Nat.le_of_not_lt known)]
      exact h
  · rw [List.getD_eq_getElem?_getD, List.getElem?_set_ne one, ← List.getD_eq_getElem?_getD]
    exact h

theorem judgeWrite_classOne {s : State} {tag : Tag} {addr : Addr} {v : Word} (h : judgeWrite s tag addr v = none) :
    classOneForbids (settingGroup addr).toNat (settingItem addr).toNat (settingIndex addr).toNat v.toNat = false := by
  cases forbids : classOneForbids (settingGroup addr).toNat (settingItem addr).toNat (settingIndex addr).toNat v.toNat with
  | false => rfl
  | true =>
    simp only [judgeWrite, forbids, if_true] at h
    repeat (split at h; · cases h)
    cases h

theorem takeStandby_sound {s : State} (v : Word) (h : s.EmergencySound) : (takeStandby v s).EmergencySound := by
  have stored : ∀ p, ({ s with sdc.settings.radio.standby := p } : State).EmergencySound := fun _ => h.congr rfl rfl
  unfold takeStandby
  simp only
  split
  · exact h
  · split
    · apply settleWork_sound
      split
      · exact (EngineKept.of_lasting (startKeep_lasting _)).sound (stored _)
      · exact (EngineKept.of_lasting (evalStandby_lasting _)).sound (stored _)
    · exact settleWork_sound ((EngineKept.of_lasting (stopKeep_lasting _)).sound (stored _))

theorem computeRegime_sound {s : State} (h : s.EmergencySound) : (computeRegime s).EmergencySound :=
  (EngineKept.of_lasting (computeRegime_lasting s)).sound h

theorem takeCap_sound {s : State} (c : Cap) (v : Word) (h : s.EmergencySound) : (takeCap c v s).EmergencySound :=
  settleWork_sound (computeRegime_sound (h.congr rfl rfl))

theorem takePreset_sound {s : State} (x : BitVec 8) (v : Word) (h : s.EmergencySound) :
    (takePreset x v s).EmergencySound := by
  apply computeRegime_sound
  split <;> exact h.congr rfl rfl

theorem takeMetering_sound {s : State} (i : Nat) (x : BitVec 8) (v : Word) (h : s.EmergencySound) :
    (takeMetering i x v s).EmergencySound := by
  unfold takeMetering
  split
  · exact takeCap_sound .soft v h
  · exact takeCap_sound .hard v h
  · exact h.congr rfl rfl
  · exact takePreset_sound x v h
  · simp only
    split
    · exact (expireIf_kept _ _ _ (refill_lasting _)).sound (h.congr rfl rfl)
    · exact h.congr rfl rfl

/-! ### Taken commands -/

theorem takeForce_sound {s : State} (v : Word) (h : s.EmergencySound) : (takeForce v s).EmergencySound := by
  unfold takeForce
  split
  · exact settleWork_sound ((EngineKept.of_lasting (failbackTest_lasting _)).sound (h.congr rfl rfl))
  · simp only
    split
    · split <;> exact h.congr rfl rfl
    · exact settleWork_sound ((EngineKept.of_lasting (startMigration_lasting _ _ _)).sound (h.congr rfl rfl))

theorem takeFailbackNow_sound {s : State} (h : s.EmergencySound) : (takeFailbackNow s).EmergencySound :=
  settleWork_sound ((EngineKept.of_lasting (startMigration_lasting _ _ _)).sound (h.congr rfl rfl))

theorem takeFailbackMode_sound {s : State} (v : Word) (h : s.EmergencySound) :
    (takeFailbackMode v s).EmergencySound := by
  unfold takeFailbackMode
  split
  · exact settleWork_sound ((EngineKept.of_lasting (failbackTest_lasting _)).sound (h.congr rfl rfl))
  · simp only
    split <;> exact h.congr rfl rfl

theorem takeRadioRestart_sound {s : State} (h : s.EmergencySound) : (takeRadioRestart s).EmergencySound := by
  unfold takeRadioRestart
  simp only
  split
  · exact (EngineKept.of_lasting (startKeep_lasting _)).sound (h.congr rfl rfl)
  · exact h.congr rfl rfl

theorem takePeriodRestart_sound {s : State} (h : s.EmergencySound) : (takePeriodRestart s).EmergencySound :=
  settleWork_sound (computeRegime_sound (h.congr rfl rfl))

theorem enterHalted_sound {s : State} (h : s.EmergencySound) : (enterHalted s).EmergencySound :=
  (EngineKept.of_lasting (enterHalted_lasting s)).sound h

/-- START and RECONFIGURE clear the deferral queue (R188, R190). -/
theorem takeStart_sound {s : State} (h : s.EmergencySound) : (takeStart s).EmergencySound := h.emptied rfl rfl

theorem takeReconfigure_sound {s : State} (h : s.EmergencySound) : (takeReconfigure s).EmergencySound :=
  h.emptied rfl rfl

theorem takeCommand_sound {s : State} (i : Nat) (v : Word) (h : s.EmergencySound) :
    (takeCommand i v s).EmergencySound := by
  unfold takeCommand
  split
  · exact takeStart_sound h
  · exact enterHalted_sound h
  · exact takeReconfigure_sound h
  · exact takeForce_sound v h
  · exact takeFailbackNow_sound h
  · exact takeFailbackMode_sound v h
  · exact takeRadioRestart_sound h
  · exact takePeriodRestart_sound h
  · exact h.congr rfl rfl
  · exact h.congr rfl rfl
  · exact h.congr rfl rfl
  · exact h

theorem takeSetting_sound {s : State} (tag : Tag) (addr : Addr) (v : Word) (judged : judgeWrite s tag addr v = none)
    (h : s.EmergencySound) : (takeSetting addr v s).EmergencySound := by
  have allowed := judgeWrite_classOne judged
  unfold takeSetting
  simp only
  split
  · exact h.congr rfl rfl
  · exact (EngineKept.of_lasting (resizeTables_lasting _ _)).sound (h.congr rfl rfl)
  · rename_i policy
    rw [policy] at allowed
    exact ⟨storedPolicy_emergency _ _ _ v h.unmetered allowed, h.absent⟩
  · exact (afterTiming_kept _ _).sound (h.congr rfl rfl)
  · split
    · exact takeStandby_sound v h
    · exact (afterRadio_kept _ _).sound (h.congr rfl rfl)
  · exact takeMetering_sound _ _ v h
  · exact takeCommand_sound _ v h
  · exact h

/-! ### Commands and steps -/

/-- The power-on values are sound: the deferral queue is empty and class 1 has its default policy. -/
theorem lowReset_sound (l : Lines) (queue : List Instr) : (State.lowReset l queue).EmergencySound :=
  ⟨rfl, fun _ hr => absurd hr List.not_mem_nil⟩

/-- The invariant of the state a command answers. -/
theorem State.EmergencySound.next {u t : State} (e : Host.Outcome.next (φ := Fault) (ρ := Refusal) u = .next t)
    (h : u.EmergencySound) : t.EmergencySound := Host.Outcome.next.inj e ▸ h

theorem exec_emergencySound (c : Instr) (s t : State) (h : s.EmergencySound) (e : exec c s = .next t) :
    t.EmergencySound := by
  have kept : ∀ {u : State}, EngineKept s u → Host.Outcome.next (φ := Fault) (ρ := Refusal) u = .next t →
      t.EmergencySound := fun k e => .next e (k.sound h)
  cases c with
  | resetAssert =>
    refine .next e ?_
    split
    · exact lowReset_sound _ _
    · exact h
  | resetRelease =>
    refine .next e ?_
    split
    · exact h
    · exact (lowReset_sound s.lines s.pending).congr rfl rfl
  | settleEnd => exact .next e (h.congr rfl rfl)
  | nearCycleBegin addr dir burst tag cfgn msetn => exact .next e (beginCycle_sound _ h)
  | nearWordGrant data fhold => exact .next e (nearGrant_sound data fhold h)
  | selRise => exact .next e (endCycle_sound h)
  | settingWrite tag addr v => exact .next e (writeCycle_sound _ _ _ _ _ h fun _ => takeSetting_sound tag addr v)
  | settingBurst tag addr dir => exact .next e (burstCycle_sound tag addr dir h)
  | standbyPolicySetting tag x v => exact .next e (writeCycle_sound _ _ _ _ _ h fun _ _ => takeStandby_sound v)
  | capSetting cap tag x v => exact .next e (writeCycle_sound _ _ _ _ _ h fun _ _ => takeCap_sound cap v)
  | poolCeilingSetting tag x v => exact .next e (writeCycle_sound _ _ _ _ _ h fun _ _ hu => hu.congr rfl rfl)
  | meterPreset tag x v => exact .next e (writeCycle_sound _ _ _ _ _ h fun _ _ => takePreset_sound x v)
  | meterSnapshotRead tag => exact .next e (readCycle_sound _ _ h)
  | summaryLatchRead tag => exact .next e (readCycle_sound _ _ h)
  | uptimeLatchRead tag => exact .next e (readCycle_sound _ _ h)
  | faultRecordLatchRead sel tag => exact .next e (readCycle_sound _ _ h)
  | alertPendingRead tag x => exact .next e (readCycle_sound _ _ h)
  | start tag x v => exact .next e (writeCycle_sound _ _ _ _ _ h fun _ _ => takeStart_sound)
  | halt tag x v => exact .next e (writeCycle_sound _ _ _ _ _ h fun _ _ => enterHalted_sound)
  | reconfigure tag x v => exact .next e (writeCycle_sound _ _ _ _ _ h fun _ _ => takeReconfigure_sound)
  | forcePath tag x v => exact .next e (writeCycle_sound _ _ _ _ _ h fun _ _ => takeForce_sound v)
  | failbackNow tag x v => exact .next e (writeCycle_sound _ _ _ _ _ h fun _ _ => takeFailbackNow_sound)
  | failbackMode tag x v => exact .next e (writeCycle_sound _ _ _ _ _ h fun _ _ => takeFailbackMode_sound v)
  | radioRestart tag x v => exact .next e (writeCycle_sound _ _ _ _ _ h fun _ _ => takeRadioRestart_sound)
  | periodRestart tag x v => exact .next e (writeCycle_sound _ _ _ _ _ h fun _ _ => takePeriodRestart_sound)
  | clearAlerts tag x v => exact .next e (writeCycle_sound _ _ _ _ _ h fun _ _ hu => hu.congr rfl rfl)
  | clearFaults tag x v => exact .next e (writeCycle_sound _ _ _ _ _ h fun _ _ hu => hu.congr rfl rfl)
  | alertEnable tag x v => exact .next e (writeCycle_sound _ _ _ _ _ h fun _ _ hu => hu.congr rfl rfl)
  | farGrant => exact .next e (farGrant_sound h)
  | farHoldLimit => exact .next e (holdLimit_sound h)
  | placementReadComplete words => exact kept (completeAccess_kept s _ _ (readDone_kept words)) e
  | publication => exact kept (completeAccess_kept s _ _ copyDone_kept) e
  | withdrawalWriteComplete => exact kept (completeAccess_kept s _ _ withdrawalDone_kept) e
  | mirrorWriteComplete => exact kept (completeAccess_kept s _ _ fun u a => .of_lasting (serviceWriteDone_lasting u a)) e
  | finalWriteComplete => exact kept (completeAccess_kept s _ _ fun u a => .of_lasting (serviceWriteDone_lasting u a)) e
  | headerWriteComplete => exact kept (completeAccess_kept s _ _ fun u _ => .refl u) e
  | startReadComplete v => exact kept (completeAccess_kept s _ _ fun u a => .of_lasting (startReadDone_lasting v u a)) e
  | startWriteComplete => exact kept (completeAccess_kept s _ _ startWriteDone_kept) e
  | lineChange p level => exact .next e (moveLine_sound p level h)
  | confirmTimerExpiry p => exact kept (expiry_kept s _ _ fun u => .of_lasting (badConfirm_lasting u p)) e
  | heartbeatIntervalEnd => exact kept (expiry_kept s _ _ heartbeatEnd_kept) e
  | stallTimerExpiry p => exact kept (expiry_kept s _ _ fun u => .of_lasting (stallExpires_lasting u p)) e
  | attachTimerExpiry => exact kept (expiry_kept s _ _ fun u => .of_lasting (attachExpires_lasting u)) e
  | powerOffTimerExpiry =>
    refine .next e ?_
    split
    · exact h.congr rfl rfl
    · exact h
  | keepTimerExpiry =>
    refine .next e ?_
    split
    · exact (EngineKept.of_lasting (stopKeep_lasting s)).sound h
    · exact h
  | flapExpiry =>
    refine .next e ?_
    split
    · exact h.congr rfl rfl
    · exact h
  | deferralExpiry =>
    refine .next e ?_
    split
    · exact (deferralTick_kept s).sound h
    · exact h
  | quietTimerExpiry a => exact kept (expiry_kept s _ _ fun u => .of_lasting (quietExpires_lasting u a)) e
  | failbackWaitExpiry => exact kept (expiry_kept s _ _ fun u => .of_lasting (waitExpires_lasting u)) e
  | mainsChange level => exact .next e (moveMains_sound level h)
  | mainsConfirmExpiry => exact kept (expiry_kept s _ _ fun u => .of_lasting (mainsAbsent_lasting u)) e
  | creditRefill => exact kept (expiry_kept s _ _ fun u => .of_lasting (refill_lasting u)) e
  | refusedSettingRead tag addr => exact .next e (readCycle_sound _ _ h)

/-- Settles O57: the command at the front keeps the invariant (`exec_emergencySound`), and so does a step on an empty queue,
which runs the expiry that is due or one REFCLK cycle. -/
theorem emergencyNeverDeferred : Obligations.EmergencyNeverDeferred := by
  intro s t h e
  unfold step at e
  split at e
  · refine exec_emergencySound _ _ t ?_ e
    exact h.congr rfl rfl
  · unfold idleStep at e
    split at e
    · split at e
      · exact exec_emergencySound _ s t h e
      · exact .next e (h.congr rfl rfl)
    · exact .next e h

end Sys2Proof.Machine

/-! SUPPORT. START and guarded writes: START's test of the part state and the geometry (R188), a part at rest, and the drop
of a guarded write (R18, R159). -/

namespace Sys2Proof.Machine

/-! ### START -/

theorem startRefusal_state (s : State) (h : s.pcf.part ≠ .config) : startRefusal s = some .state := if_pos h

theorem startRefusal_geometry (s : State) (h : s.pcf.part = .config) (unfit : ¬ s.geo.fits) :
    startRefusal s = some .geometry := by
  rw [← Geometry.accepted_iff, Bool.not_eq_true] at unfit
  simp [startRefusal, h, unfit]

theorem startRefusal_none (s : State) (h : s.pcf.part = .config) (fit : s.geo.fits) : startRefusal s = none := by
  rw [← Geometry.accepted_iff] at fit
  simp [startRefusal, h, fit]

/-- The first access of the START sequence reads header word 0. -/
theorem startReadAccess_zero (s : State) : startReadAccess s 0 =
    ⟨.startRead, BitVec.ofNat 24 (s.geo.header.value.toNat * 256), [], none, none, 0, false, false⟩ := by
  simp [startReadAccess, State.headerAddr, BaseSetting.addr]

/-- Settles O25: the decoder passes a supervisor's START, and `startRefusal` decides by the part state, then the geometry. -/
theorem startChecksGeometry : Obligations.StartChecksGeometry := by
  intro s x v h
  have judged : judgeWrite { s with nsi.near := none } .supervisor (settingAddr 6 0 x) v = none :=
    judgeWrite_command _ 0 x v (by decide) rfl
  refine ⟨fun part => ?_, fun part unfit => ?_, fun part fit => ?_⟩
  · exact congrArg _ (writeCycle_owner s _ _ v startRefusal takeStart _ h judged (startRefusal_state _ part))
  · exact congrArg _ (writeCycle_owner s _ _ v startRefusal takeStart _ h judged (startRefusal_geometry _ part unfit))
  · refine congrArg _ ((writeCycle_taken s _ _ v startRefusal takeStart h judged (startRefusal_none _ part fit)).trans ?_)
    rw [takeStart, startReadAccess_zero]
    rfl

/-! ### A part at rest -/

/-- The engine has nothing to choose: it may not start work, or it has no scan, no mark and nothing queued for the path it
serves (R48). -/
theorem engineStep_none_iff (s : State) : engineStep s = none ↔
    ∀ p, s.pcf.part = .active → s.swc.service = some p → s.ple.claim = .none → s.ple.op = none →
      s.ple.scan = none ∧ s.ple.rexPending = false ∧ s.ple.placementQ = [] ∧ (p = .fibre → s.ple.deferralQ = []) := by
  constructor
  · intro h p part service claim op
    cases scan : s.ple.scan with
    | some c => simp [engineStep, part, service, claim, op, scan] at h
    | none =>
      cases rex : s.ple.rexPending with
      | true => simp [engineStep, part, service, claim, op, scan, rex] at h
      | false =>
        cases placement : s.ple.placementQ with
        | cons i rest =>
          cases deferral : s.ple.deferralQ <;> cases p <;>
            simp [engineStep, part, service, claim, op, scan, rex, placement, deferral] at h
          split at h <;> cases h
        | nil =>
          refine ⟨rfl, rfl, rfl, fun fibre => ?_⟩
          cases deferral : s.ple.deferralQ with
          | nil => rfl
          | cons r rest =>
            simp [engineStep, part, service, claim, op, scan, rex, placement, deferral, fibre, State.deferralFirst] at h
  · intro h
    unfold engineStep
    split
    · rename_i p part service claim op
      obtain ⟨scan, rex, placement, deferral⟩ := h p part service claim op
      cases p with
      | fibre => simp [scan, rex, placement, deferral rfl]
      | radio => simp [scan, rex, placement]
    · rfl

/-- Rest is a matter of the engine, the switch and the part state alone. -/
theorem atRest_congr {s t : State} (ple : t.ple = s.ple) (swc : t.swc = s.swc) (part : t.pcf.part = s.pcf.part)
    (h : s.atRest) : t.atRest := by
  unfold State.atRest workStep at *
  rw [ple, swc, part]
  cases claim : s.ple.claim with
  | none =>
    simp only [claim] at h ⊢
    rw [engineStep_none_iff] at h ⊢
    rw [ple, swc, part]
    exact h
  | pending =>
    simp only [claim] at h ⊢
    split at h
    · cases h
    · rename_i busy
      rw [if_neg busy]
  | held =>
    simp only [claim] at h ⊢
    split at h
    · split at h <;> cases h
    · rename_i busy
      rw [if_neg busy]

/-! ### A guarded write -/

/-- The word completes for the near cycle that stands in the state (R156). -/
theorem finishWord_near {s : State} {c : NearCycle} (h : s.nsi.near = some c) :
    finishWord s = { s with
      nsi.near := if s.cycleLength c ≤ c.pos + 1 then none else some { c with pos := c.pos + 1, data := none } } := by
  unfold finishWord
  rw [h]
  simp only
  split <;> rfl

theorem closeRun_port (s : State) :
    closeRun s = { s with fsp.port := match s.fsp.port with | .nearRun _ => .free | q => q } := by
  unfold closeRun
  cases h : s.fsp.port <;> simp only <;> rw [← h]

/-- A guarded word is dropped: the notice, the run's end, the word complete. -/
theorem nearWord_guarded {s : State} {c : NearCycle} {path : Option Path} (v : Word) (fhold : Bool)
    (near : s.nsi.near = some c) (cfgn : c.cfgn = true) (dead : c.dead = false) (port : ∀ w, s.fsp.port ≠ .nearHeld w)
    (guarded : s.treatment c (s.wordAddr c c.pos) = .guarded path) :
    nearWord s v fhold = finishWord (closeRun (takeFault s .guardedWrite path none)) := by
  unfold nearWord
  simp only [near, cfgn, dead, guarded, Bool.true_eq_false, Bool.false_eq_true, if_false]

/-- Settles O8: a guarded word is dropped (`nearWord_guarded`), which leaves a part at rest at rest (`atRest_congr`), so the
timers brought in line are all that follows. -/
theorem guardedWriteIsDropped : Obligations.GuardedWriteIsDropped := by
  intro s c path data fhold rstn rest near cfgn dead port guarded
  have dropped : nearWord s data fhold =
      { takeFault s .guardedWrite path none with
        fsp.port := match s.fsp.port with | .nearRun _ => .free | q => q
        nsi.near := if s.cycleLength c ≤ c.pos + 1 then none else some { c with pos := c.pos + 1, data := none } } := by
    rw [nearWord_guarded data fhold near cfgn dead port guarded, closeRun_port]
    exact finishWord_near (c := c) near
  have run : exec (.nearWordGrant data fhold) s = .next (nearWord s data fhold).timersInLine := by
    show Host.Outcome.next (nearGrant s data fhold) = _
    rw [nearGrant, if_pos rstn, settleWork_rest, syncTimers_inLine]
    rw [dropped]
    exact atRest_congr (s := s) rfl rfl rfl rest
  rw [run, dropped]
  exact ⟨_, rfl, rfl, rfl, rfl, rfl, rfl, rfl, rfl, rfl, rfl, rfl, rfl, rfl, rfl⟩

end Sys2Proof.Machine

/-! SUPPORT. Initiator tags, faults and near words at the far port: which owner takes a word, and how a word that is passed or
redirected is granted, transfers or waits (R17, R22, R159 to R165). -/

namespace Sys2Proof.Machine

/-! ### Tags and faults -/

theorem isController_iff (t : Tag) : isController t = true ↔ t = .supervisor ∨ t = .user := by
  cases t <;> decide

theorem tagPath_iff (t : Tag) (p : Path) :
    tagPath t = some p ↔ t = match p with | .fibre => .fibreTerm | .radio => .radioTerm := by
  cases t <;> cases p <;> decide

/-- A taken fault's effects, by its class (R191, R194). -/
theorem takeFault_faulted (s : State) (cause : FaultCause) (p : Option Path) (i : Option Nat) :
    takeFault s cause p i = s.faulted (causeClass cause) cause p i := by
  have first : (s.pcf.first.isNone && mayBeFirst (causeClass cause) s.pcf.part) = true ↔
      s.pcf.first = none ∧ ¬ (causeClass cause = .integrity ∧ (s.pcf.part = .halted ∨ s.pcf.part = .config)) := by
    simp [mayBeFirst, Decidable.imp_iff_not_or]
  unfold takeFault State.faulted
  simp only [first]
  cases causeClass cause <;> rfl

/-! ### The owner of a word -/

/-- The seven header words that a tag may write, and all others (R15). -/
theorem headerWord_cases (w : Nat) : w = 0 ∨ w = 1 ∨ w = 3 ∨ w = 5 ∨ w = 6 ∨ w = 9 ∨ w = 10 ∨
    (w ≠ 0 ∧ w ≠ 1 ∧ w ≠ 3 ∧ w ≠ 5 ∧ w ≠ 6 ∧ w ≠ 9 ∧ w ≠ 10) := by
  omega

theorem mayWriteHeader_iff (w : Nat) (t : Tag) :
    mayWriteHeader w t = true ↔ ((w = 0 ∨ w = 1 ∨ w = 3) ∧ (t = .supervisor ∨ t = .user)) ∨
      ((w = 5 ∨ w = 6) ∧ t = .fibreTerm) ∨ ((w = 9 ∨ w = 10) ∧ t = .radioTerm) := by
  rcases headerWord_cases w with rfl | rfl | rfl | rfl | rfl | rfl | rfl | other
  case inr.inr.inr.inr.inr.inr.inr => simp [mayWriteHeader, other]
  all_goals simp [mayWriteHeader, isController_iff]

/-- A header word's value goes to the owner the word names, from its writing tags only (R15). -/
theorem takeHeader_owner (u : State) (w : Nat) (t : Tag) (v : Word) :
    (if mayWriteHeader w t then takeHeader u w v else u) =
      if w = 0 ∧ (t = .supervisor ∨ t = .user) then takePost u v
      else if w = 1 ∧ (t = .supervisor ∨ t = .user) then takeReclaim u v
      else if w = 3 ∧ (t = .supervisor ∨ t = .user) then takeRelease u v
      else if w = 5 ∧ t = .fibreTerm then takeTxConsumer u .fibre v
      else if w = 6 ∧ t = .fibreTerm then takeRxProducer u .fibre v
      else if w = 9 ∧ t = .radioTerm then takeTxConsumer u .radio v
      else if w = 10 ∧ t = .radioTerm then takeRxProducer u .radio v
      else u := by
  rcases headerWord_cases w with rfl | rfl | rfl | rfl | rfl | rfl | rfl | other
  case inr.inr.inr.inr.inr.inr.inr => simp [mayWriteHeader_iff, other]
  all_goals simp [mayWriteHeader_iff, takeHeader]

theorem isCompletion_iff (w : Word) :
    isCompletion w = true ↔ w.getLsbD 15 = false ∧ w.extractLsb' 7 4 ≠ (0 : Status) := by
  rw [isCompletion, Bool.and_eq_true, Bool.not_eq_true', decide_eq_true_iff]
  rfl

/-- The states in which a write to a service transmit slot is late (R27, R28). -/
theorem lateSlot_eq (u : State) (i : Nat) :
    u.lateSlot i = match (u.entry i).state with
      | .deferred | .placed | .fetched | .done | .skipped => true
      | .placing => u.ple.op.any (fun o => decide (o.slot = i ∧ o.phase = .waiting))
      | .free | .posted | .withdrawing => false := by
  unfold State.lateSlot State.opWaits
  cases (u.entry i).state <;> simp only
  cases u.ple.op <;> simp

/-- LATE_WRITE is raised once for a cycle and slot (R27). -/
theorem lateWrite_eq (u : State) (c : NearCycle) (i : Nat) :
    lateWrite u c i =
      if u.lateSlot i = true ∧ i ∉ c.late then
        { u.faulted .notice .lateWrite none (some i) with
          nsi.near := u.nsi.near.map (fun n => { n with late := i :: n.late }) }
      else u := by
  have late : (u.lateSlot i && !c.late.contains i) = true ↔ u.lateSlot i = true ∧ i ∉ c.late := by simp
  unfold lateWrite
  simp only [late, takeFault_faulted]
  rfl

/-- A word outside ACTIVE, or of a memory setting cycle, has no owner (R22, R161). -/
theorem takeWord_inactive (u : State) (c : NearCycle) (a : Addr) (v : Word) (h : u.pcf.part ≠ .active ∨ c.msetn = false) :
    takeWord u c a v = u := by
  unfold takeWord
  rw [if_neg]
  rintro ⟨part, msetn⟩
  rcases h with h | h
  · exact h part
  · rw [msetn] at h; cases h

section
variable {u : State} {c : NearCycle} {a : Addr} (v : Word) (part : u.pcf.part = .active) (msetn : c.msetn = true)
include part msetn

theorem takeWord_header {w : Nat} (r : u.regionOf a = .header w) :
    takeWord u c a v = if c.dir = .read then u else if mayWriteHeader w c.tag then takeHeader u w v else u := by
  cases dir : c.dir <;> simp [takeWord, part, msetn, r, dir]

theorem takeWord_tx {p : Path} {i k : Nat} (r : u.regionOf a = .tx p i k) :
    takeWord u c a v =
      if k ≠ 0 ∨ tagPath c.tag ≠ some p then u
      else if c.dir = .read then takeFetch u p i
      else if isCompletion v then takeCompletion u p i v
      else u := by
  by_cases first : k = 0 <;> by_cases own : tagPath c.tag = some p <;> cases dir : c.dir <;>
    simp [takeWord, part, msetn, r, dir, first, own]

theorem takeWord_rx {p : Path} {i k : Nat} (r : u.regionOf a = .rx p i k) :
    takeWord u c a v =
      if c.dir = .write ∧ p = .radio ∧ k = 1 ∧ c.tag = .radioTerm then
        ({ u with umt.rx := metered u.umt.rx v.toNat } : State).regimed
      else u := by
  cases p <;> cases dir : c.dir <;>
    simp [takeWord, part, msetn, r, dir, meterRx, computeRegime_regimed, addBytes_metered]

theorem takeWord_svcTx {i k : Nat} (r : u.regionOf a = .svcTx i k) :
    takeWord u c a v = if c.dir = .write ∧ isController c.tag = true then lateWrite u c i else u := by
  cases dir : c.dir <;> simp [takeWord, part, msetn, r, dir]

theorem takeWord_svcRx {i k : Nat} (r : u.regionOf a = .svcRx i k) : takeWord u c a v = u := by
  simp [takeWord, part, msetn, r]

theorem takeWord_ordinary (r : u.regionOf a = .ordinary) : takeWord u c a v = u := by
  simp [takeWord, part, msetn, r]

end

/-- The near cycle keeps its place and its kind while the owner takes its word. -/
theorem wordTaken_near {s : State} {c : NearCycle} (fa : Addr) (v : Word) (near : s.nsi.near = some c) :
    ∃ n, (s.wordTaken c fa v).nsi.near = some n ∧ n.burst = c.burst ∧ n.pos = c.pos := by
  unfold State.wordTaken
  generalize pinned : ({ s with fsp.holdTimer := 0, fsp.pins := _ } : State) = u
  have near : u.nsi.near = some c := by rw [← pinned]; exact near
  rcases takeWord_cases u c (s.wordAddr c c.pos) v with ⟨i, late⟩ | kept
  · rw [late, lateWrite_eq]
    split
    · exact ⟨{ c with late := i :: c.late }, congrArg (Option.map _) near, rfl, rfl⟩
    · exact ⟨c, near, rfl, rfl⟩
  · exact ⟨c, kept.nsi ▸ near, rfl, rfl⟩

/-! ### A word passed or redirected -/

theorem partWaits_iff (s : State) : s.partWaits = true ↔
    ((s.pcf.part = .starting ∨ s.pcf.part = .active) ∧ s.fsp.list ≠ []) ∨
      (s.pcf.part = .active ∧ s.fsp.copyReq ≠ none) := by
  simp [State.partWaits, State.shortWaits, State.copyWaits, Option.isSome_iff_ne_none]

/-- The near streak counts a grant where part work waits, and is 0 else (R165). -/
theorem chargeNear_eq (s : State) : chargeNear s =
    { s with
      fsp.streak :=
        if ((s.pcf.part = .starting ∨ s.pcf.part = .active) ∧ s.fsp.list ≠ []) ∨
            (s.pcf.part = .active ∧ s.fsp.copyReq ≠ none)
        then (if s.fsp.streak < 4 then s.fsp.streak + 1 else 4)
        else 0 } := by
  unfold chargeNear
  simp only [partWaits_iff]
  rfl

/-- A grant with FHOLD low: taken and transferred in the one event. -/
theorem grantWord_transferred {s : State} {c : NearCycle} (fa : Addr) (v : Word) (near : s.nsi.near = some c) :
    grantWord s c (s.wordAddr c c.pos) fa v false = (s.wordTaken c fa v).transferred c fa v := by
  obtain ⟨n, taken, burst, pos⟩ := wordTaken_near fa v near
  rw [grantWord_taken, if_neg Bool.false_ne_true, transferWord_transferred _ c n fa v taken burst pos]

/-- A grant with FHOLD high: taken, and in transfer (log 7). -/
theorem grantWord_held (s : State) (c : NearCycle) (fa : Addr) (v : Word) :
    grantWord s c (s.wordAddr c c.pos) fa v true =
      { s.wordTaken c fa v with fsp.port := .nearHeld ⟨fa, c.dir, c.tag⟩ } := by
  rw [grantWord_taken, if_pos rfl]

theorem nearWord_presents {s : State} {c : NearCycle} {fa : Addr} (v : Word) (fhold : Bool) (h : s.presents c fa)
    (port : ∀ w, s.fsp.port ≠ .nearHeld w) :
    nearWord s v fhold = requestWord s c (s.wordAddr c c.pos) fa v fhold := by
  obtain ⟨near, cfgn, dead, far⟩ := h
  unfold nearWord
  simp only [near, cfgn, dead, Bool.true_eq_false, Bool.false_eq_true, if_false]
  cases treatment : s.treatment c (s.wordAddr c c.pos) <;> simp [treatment, Treatment.farAddr] at far ⊢
  · rw [far]
  · rw [far]

theorem requestWord_continues {s : State} {fa : Addr} (c : NearCycle) (a : Addr) (v : Word) (fhold : Bool)
    (h : s.runContinues fa) : requestWord s c a fa v fhold = grantWord s c a fa v fhold := by
  obtain ⟨last, port, next⟩ := h
  simp [requestWord, port, (followsRun_iff last fa).2 next]

/-- At a port that opens a word is arbitrated: granted with the streak counted, or left to wait (R165). -/
theorem requestWord_opens {s : State} {fa : Addr} (c : NearCycle) (a : Addr) (v : Word) (fhold : Bool)
    (h : s.portOpens fa) :
    requestWord s c a fa v fhold =
      if ({ s with fsp.port := .free } : State).nearWins then
        grantWord (chargeNear { s with fsp.port := .free }) c a fa v fhold
      else waitWord { s with fsp.port := .free } c v := by
  unfold requestWord
  rcases h with port | ⟨w, port⟩ | ⟨last, port, other⟩
  · have same : ({ s with fsp.port := .free } : State) = s := by rw [← port]
    rw [same]
    simp only [port]
  · simp only [port]
  · have apart : ¬ followsRun last fa = true := fun h => other ((followsRun_iff last fa).1 h)
    simp only [port, apart, Bool.false_eq_true, if_false, closeRun_port]

theorem requestWord_part {s : State} {b : Access} (c : NearCycle) (a fa : Addr) (v : Word) (fhold : Bool)
    (port : s.fsp.port = .part b) : requestWord s c a fa v fhold = waitWord s c v := by
  simp [requestWord, port]

theorem nearWord_held {s : State} {c : NearCycle} {w : NearFlight} (v : Word) (fhold : Bool) (near : s.nsi.near = some c)
    (cfgn : c.cfgn = true) (dead : c.dead = false) (port : s.fsp.port = .nearHeld w) :
    nearWord s v fhold = if fhold then s else transferWord s c.dir w.addr v := by
  simp [nearWord, near, cfgn, dead, port]

theorem nearWord_waits {s : State} {c : NearCycle} (v : Word) (fhold : Bool) (near : s.nsi.near = some c)
    (cfgn : c.cfgn = true) (dead : c.dead = false) (port : ∀ w, s.fsp.port ≠ .nearHeld w)
    (hold : s.treatment c (s.wordAddr c c.pos) = .hold) : nearWord s v fhold = waitWord (closeRun s) c v := by
  unfold nearWord
  simp only [near, cfgn, dead, hold, Bool.true_eq_false, Bool.false_eq_true, if_false]

theorem nearWord_none {s : State} (v : Word) (fhold : Bool)
    (h : s.nsi.near = none ∨ ∃ c, s.nsi.near = some c ∧ c.cfgn = false) : nearWord s v fhold = s := by
  rcases h with near | ⟨c, near, cfgn⟩
  · simp [nearWord, near]
  · simp [nearWord, near, cfgn]

/-- NEAR_WORD_GRANT with RSTN high: the near word, and the part's own work. -/
theorem exec_nearWordGrant {s t : State} {v : Word} {fhold : Bool} (rstn : s.rstn = true) (h : nearWord s v fhold = t) :
    exec (.nearWordGrant v fhold) s = .next (settleWork t) := by
  subst h
  show Host.Outcome.next (nearGrant s v fhold) = _
  rw [nearGrant, if_pos rstn]

/-- A granted word, for both levels of FHOLD: transferred in the one event, or in transfer (R159, log 7). -/
theorem exec_granted {s u : State} {c : NearCycle} {fa : Addr} {v : Word} (rstn : s.rstn = true)
    (near : u.nsi.near = some c)
    (run : ∀ fhold, nearWord s v fhold = grantWord u c (u.wordAddr c c.pos) fa v fhold) :
    exec (.nearWordGrant v false) s = .next (settleWork ((u.wordTaken c fa v).transferred c fa v)) ∧
      exec (.nearWordGrant v true) s =
        .next (settleWork { u.wordTaken c fa v with fsp.port := .nearHeld ⟨fa, c.dir, c.tag⟩ }) :=
  ⟨exec_nearWordGrant rstn ((run false).trans (grantWord_transferred fa v near)),
    exec_nearWordGrant rstn ((run true).trans (grantWord_held u c fa v))⟩

theorem nearWord_continues {s : State} {c : NearCycle} {fa : Addr} (v : Word) (fhold : Bool) (h : s.presents c fa)
    (continues : s.runContinues fa) : nearWord s v fhold = grantWord s c (s.wordAddr c c.pos) fa v fhold := by
  rw [nearWord_presents v fhold h, requestWord_continues _ _ _ _ continues]
  intro w held
  obtain ⟨last, port, -⟩ := continues
  rw [port] at held
  cases held

theorem nearWord_opens {s : State} {c : NearCycle} {fa : Addr} (v : Word) (fhold : Bool) (h : s.presents c fa)
    (opening : s.portOpens fa) :
    nearWord s v fhold =
      if ({ s with fsp.port := .free } : State).nearWins then
        grantWord (chargeNear { s with fsp.port := .free }) c (s.wordAddr c c.pos) fa v fhold
      else waitWord { s with fsp.port := .free } c v := by
  rw [nearWord_presents v fhold h, requestWord_opens _ _ _ _ opening]
  intro w held
  rcases opening with port | ⟨w, port⟩ | ⟨last, port, -⟩ <;> rw [port] at held <;> cases held

theorem nearWord_part {s : State} {c : NearCycle} {fa : Addr} {b : Access} (v : Word) (fhold : Bool) (h : s.presents c fa)
    (port : s.fsp.port = .part b) : nearWord s v fhold = s.offered v := by
  rw [nearWord_presents v fhold h, requestWord_part _ _ _ _ _ port, waitWord_offered s c v h.1]
  intro w held
  rw [port] at held
  cases held

/-- Settles O6: a word presented goes on with its run (`nearWord_continues`), is arbitrated at a port that opens
(`nearWord_opens`) or waits; a word in transfer or held; the command with no memory word; the owner of a word by its region. -/
theorem nearWordGrantTakesAndTransfers : Obligations.NearWordGrantTakesAndTransfers := by
  refine ⟨?_, ?_, ?_, fun c a v u => ⟨takeWord_inactive u c a v, fun part msetn => ⟨?_, ?_, ?_, ?_, ?_, ?_⟩⟩⟩
  · intro s c fa v rstn h short copy reissue wins opened charged granted
    have near : s.nsi.near = some c := h.1
    have won : opened.nearWins = true ↔ wins := nearWins_iff opened
    have charge : chargeNear opened = charged := chargeNear_eq opened
    refine ⟨fun continues => ?_, fun opening win => ?_, fun opening lost fhold => ?_, fun b port fhold => ?_⟩
    · exact exec_granted rstn near fun fhold => nearWord_continues v fhold h continues
    · refine exec_granted rstn near fun fhold => ?_
      rw [nearWord_opens v fhold h opening, if_pos (won.2 win), charge]
      rfl
    · refine exec_nearWordGrant rstn ?_
      rw [nearWord_opens v fhold h opening, if_neg (mt won.1 lost)]
      exact waitWord_offered opened c v near
    · exact exec_nearWordGrant rstn (nearWord_part v fhold h port)
  · intro s c v rstn near cfgn dead
    refine ⟨fun w port => ⟨exec_nearWordGrant rstn ?_, exec_nearWordGrant rstn ?_⟩, fun port hold => ?_⟩
    · rw [nearWord_held v false near cfgn dead port, if_neg Bool.false_ne_true]
      exact transferWord_transferred s c c w.addr v near rfl rfl
    · exact (nearWord_held v true near cfgn dead port).trans (if_pos rfl)
    · intro closed fhold
      refine exec_nearWordGrant rstn ?_
      rw [nearWord_waits v fhold near cfgn dead port hold, closeRun_port]
      exact waitWord_offered closed c v near
  · refine fun s v fhold => ⟨fun low => ?_, fun rstn idle => exec_nearWordGrant rstn (nearWord_none v fhold idle)⟩
    show Host.Outcome.next (nearGrant s v fhold) = _
    rw [nearGrant, low]
    rfl
  · intro w r
    rw [takeWord_header v part msetn r, takeHeader_owner]
  · intro p i k r
    rw [takeWord_tx v part msetn r]
    simp only [ne_eq, tagPath_iff, isCompletion_iff] <;> rfl
  · intro p i k r
    rw [takeWord_rx v part msetn r]
  · intro i k r
    rw [takeWord_svcTx v part msetn r]
    by_cases owned : c.dir = .write ∧ isController c.tag = true
    · rw [if_pos owned, lateWrite_eq, lateSlot_eq]
      rw [isController_iff] at owned
      simp only [owned.1, owned.2, true_and] <;> rfl
    · rw [if_neg owned]
      rw [isController_iff] at owned
      rw [if_neg (fun h => owned ⟨h.1, h.2.1⟩)]
  · exact fun i k r => takeWord_svcRx v part msetn r
  · exact takeWord_ordinary v part msetn

end Sys2Proof.Machine

/-! SUPPORT. Where the regions lie, how a near word is treated, and the HOLD line (R2 to R6, R15, R18, R26 to R28, R44, R89,
R160, R161). -/

namespace Sys2Proof.Machine

/-! ### The HOLD line -/

/-- With RSTN high HOLD has its asserting level exactly when it is asserted (R160). -/
theorem holdLevel_iff {s : State} (rstn : s.rstn = true) :
    s.holdLevel = decide (s.sdc.settings.bus.polarity = 1) ↔ s.holdAsserted = true := by
  unfold State.holdLevel
  rw [if_pos rstn]
  cases s.holdAsserted <;> cases decide (s.sdc.settings.bus.polarity = 1) <;> decide

theorem holdAsserted_idle {s : State} (rstn : s.rstn = true) (near : s.nsi.near = none) : s.holdAsserted = false := by
  simp [State.holdAsserted, rstn, near]

theorem holdAsserted_carried {s : State} {c : NearCycle} (rstn : s.rstn = true) (near : s.nsi.near = some c)
    (h : c.cfgn = false ∨ c.dead = true) : s.holdAsserted = false := by
  rcases h with h | h <;> simp [State.holdAsserted, rstn, near, h]

theorem holdAsserted_held {s : State} {c : NearCycle} (near : s.nsi.near = some c) (cfgn : c.cfgn = true)
    (dead : c.dead = false) (h : s.treatment c (s.wordAddr c c.pos) = .hold) : s.holdAsserted = true := by
  simp [State.holdAsserted, near, cfgn, dead, h]

section
variable {s : State} {c : NearCycle} (rstn : s.rstn = true) (near : s.nsi.near = some c) (cfgn : c.cfgn = true)
  (dead : c.dead = false)
include rstn near cfgn dead

theorem holdAsserted_guarded {p : Option Path} (h : s.treatment c (s.wordAddr c c.pos) = .guarded p) :
    s.holdAsserted = false := by
  simp [State.holdAsserted, rstn, near, cfgn, dead, h]

theorem holdAsserted_far {fa : Addr}
    (h : (s.treatment c (s.wordAddr c c.pos)).farAddr (s.wordAddr c c.pos) = some fa) :
    s.holdAsserted = !s.grantable fa := by
  cases treatment : s.treatment c (s.wordAddr c c.pos) <;> simp [treatment, Treatment.farAddr] at h <;> subst h
  · simp [State.holdAsserted, rstn, near, cfgn, dead, treatment]
  · simp [State.holdAsserted, rstn, near, cfgn, dead, treatment]

end

theorem grantable_busy {s : State} (fa : Addr) (h : (∃ b, s.fsp.port = .part b) ∨ (∃ w, s.fsp.port = .nearHeld w) ∨
    (∃ w, s.fsp.port = .nearOrphan w)) : s.grantable fa = false := by
  rcases h with ⟨b, port⟩ | ⟨w, port⟩ | ⟨w, port⟩ <;> simp [State.grantable, port]

theorem grantable_free {s : State} (fa : Addr) (port : s.fsp.port = .free) : s.grantable fa = s.nearWins := by
  simp [State.grantable, port]

theorem grantable_run {s : State} {last : Addr} (fa : Addr) (port : s.fsp.port = .nearRun last) :
    s.grantable fa = true ↔ fa.toNat = last.toNat + 1 ∨ s.nearWins = true := by
  simp [State.grantable, port, followsRun_iff]

/-! ### Where the regions lie -/

/-- An address lies in n words from a base, 256 words a base step (R5). -/
def BaseSetting.covers (b : BaseSetting) (n : Nat) (a : Addr) : Prop :=
  256 * b.value.toNat ≤ a.toNat ∧ a.toNat < 256 * b.value.toNat + n

/-- An address is word k of slot i of a ring of n words from a base, 8 words a slot (R2). -/
def BaseSetting.slotHolds (b : BaseSetting) (n : Nat) (a : Addr) (i k : Nat) : Prop :=
  b.covers n a ∧ i = (a.toNat - 256 * b.value.toNat) / 8 ∧ k = (a.toNat - 256 * b.value.toNat) % 8

/-- An address lies in a region, at the slot and word or the header word it names; ordinary memory is all else (R6). -/
def Geometry.holds (g : Geometry) (a : Addr) : Region → Prop
  | .svcTx i k => g.svcTx.base.slotHolds (8 * (32 * 2 ^ g.svcTx.size)) a i k
  | .svcRx i k => g.svcRx.base.slotHolds (8 * (32 * 2 ^ g.svcRx.size)) a i k
  | .header w => g.header.covers 12 a ∧ w = a.toNat - 256 * g.header.value.toNat
  | .tx p i k => (g.tx.get p).base.slotHolds (8 * (16 * 2 ^ (g.tx.get p).size)) a i k
  | .rx p i k => (g.rx.get p).base.slotHolds (8 * (16 * 2 ^ (g.rx.get p).size)) a i k
  | .ordinary =>
    ¬ g.svcTx.base.covers (8 * (32 * 2 ^ g.svcTx.size)) a ∧ ¬ g.svcRx.base.covers (8 * (32 * 2 ^ g.svcRx.size)) a ∧
      ¬ g.header.covers 12 a ∧ ∀ p, ¬ (g.tx.get p).base.covers (8 * (16 * 2 ^ (g.tx.get p).size)) a ∧
        ¬ (g.rx.get p).base.covers (8 * (16 * 2 ^ (g.rx.get p).size)) a

theorem inWords_iff (a : Addr) (b : BaseSetting) (n : Nat) : inWords a.toNat b.addr n = true ↔ b.covers n a := by
  rw [inWords, Bool.and_eq_true, decide_eq_true_iff, decide_eq_true_iff, BaseSetting.addr, Nat.mul_comm]
  rfl

/-- An address of a ring's words is the word of the slot it falls in. -/
theorem slotHolds_of_inWords {a : Addr} {b : BaseSetting} {n : Nat} (h : inWords a.toNat b.addr n = true) :
    b.slotHolds n a ((a.toNat - b.addr) / 8) ((a.toNat - b.addr) % 8) := by
  have base : b.addr = 256 * b.value.toNat := Nat.mul_comm _ _
  exact ⟨(inWords_iff a b n).1 h, by rw [base], by rw [base]⟩

/-- The region the window decoder finds holds the address. -/
theorem regionOf_holds (s : State) (a : Addr) : s.geo.holds a (s.regionOf a) := by
  unfold State.regionOf
  simp only
  split
  · exact slotHolds_of_inWords ‹_›
  · split
    · exact slotHolds_of_inWords ‹_›
    · split
      · rename_i h
        exact ⟨(inWords_iff a _ 12).1 h, congrArg (a.toNat - ·) (Nat.mul_comm _ _)⟩
      · split
        · exact slotHolds_of_inWords ‹_›
        · split
          · exact slotHolds_of_inWords ‹_›
          · split
            · exact slotHolds_of_inWords ‹_›
            · split
              · exact slotHolds_of_inWords ‹_›
              · rename_i svcTx svcRx header txFibre txRadio rxFibre rxRadio
                rw [inWords_iff] at svcTx svcRx header txFibre txRadio rxFibre rxRadio
                exact ⟨svcTx, svcRx, header, fun p =>
                  match p with
                  | .fibre => ⟨txFibre, rxFibre⟩
                  | .radio => ⟨txRadio, rxRadio⟩⟩

/-- Ordinary memory shares no address with a region. -/
theorem holds_ordinary_only {g : Geometry} {a : Addr} {r : Region} (h : g.holds a .ordinary) (k : g.holds a r) :
    r = .ordinary := by
  obtain ⟨svcTx, svcRx, header, paths⟩ := h
  cases r with
  | svcTx i j => exact absurd k.1 svcTx
  | svcRx i j => exact absurd k.1 svcRx
  | header w => exact absurd k.1 header
  | tx p i j => exact absurd k.1 (paths p).1
  | rx p i j => exact absurd k.1 (paths p).2
  | ordinary => rfl

/-- The place of a region in the list of the seven; ordinary memory has none of them. -/
def Region.place : Region → Nat
  | .svcTx _ _ => 0
  | .svcRx _ _ => 1
  | .header _ => 2
  | .tx .fibre _ _ => 3
  | .rx .fibre _ _ => 4
  | .tx .radio _ _ => 5
  | .rx .radio _ _ => 6
  | .ordinary => 7

/-- The words of a base as a region of the list. -/
theorem covers_span {b : BaseSetting} {n : Nat} {a : Addr} (h : b.covers n a) : b.addr ≤ a.toNat ∧ a.toNat < b.addr + n := by
  have base : b.addr = 256 * b.value.toNat := Nat.mul_comm _ _
  rw [base]
  exact h

/-- A region that holds an address stands in the list, at its place, as a span that holds it. -/
theorem holds_span {g : Geometry} {a : Addr} {r : Region} (h : g.holds a r) (named : r ≠ .ordinary) :
    ∃ span, g.regions[r.place]? = some span ∧ span.1 ≤ a.toNat ∧ a.toNat < span.1 + span.2 := by
  cases r with
  | svcTx i k => exact ⟨_, rfl, covers_span h.1⟩
  | svcRx i k => exact ⟨_, rfl, covers_span h.1⟩
  | header w => exact ⟨_, rfl, covers_span h.1⟩
  | tx p i k => cases p <;> exact ⟨_, rfl, covers_span h.1⟩
  | rx p i k => cases p <;> exact ⟨_, rfl, covers_span h.1⟩
  | ordinary => exact absurd rfl named

/-- Two places of a fitting geometry that hold one address are the same. -/
theorem span_unique {g : Geometry} (fit : g.fits) {a i j : Nat} {p q : Nat × Nat} (hi : g.regions[i]? = some p)
    (hj : g.regions[j]? = some q) (hp : p.1 ≤ a ∧ a < p.1 + p.2) (hq : q.1 ≤ a ∧ a < q.1 + q.2) : i = j := by
  obtain ⟨-, -, apart⟩ := fit
  rw [List.pairwise_iff_getElem] at apart
  obtain ⟨li, rfl⟩ := List.getElem?_eq_some_iff.1 hi
  obtain ⟨lj, rfl⟩ := List.getElem?_eq_some_iff.1 hj
  rcases Nat.lt_trichotomy i j with less | same | more
  · exact absurd ⟨hp, hq⟩ (apart i j li lj less a)
  · exact same
  · exact absurd ⟨hq, hp⟩ (apart j i lj li more a)

/-- The slot and word of an address in a ring from a base. -/
def BaseSetting.slotAndWord (b : BaseSetting) (a : Addr) : Nat × Nat :=
  ((a.toNat - 256 * b.value.toNat) / 8, (a.toNat - 256 * b.value.toNat) % 8)

/-- The region at a place, with the slot and word an address has there. -/
def Geometry.regionAt (g : Geometry) (a : Addr) : Nat → Region
  | 0 => .svcTx (g.svcTx.base.slotAndWord a).1 (g.svcTx.base.slotAndWord a).2
  | 1 => .svcRx (g.svcRx.base.slotAndWord a).1 (g.svcRx.base.slotAndWord a).2
  | 2 => .header (a.toNat - 256 * g.header.value.toNat)
  | 3 => .tx .fibre (g.tx.fibre.base.slotAndWord a).1 (g.tx.fibre.base.slotAndWord a).2
  | 4 => .rx .fibre (g.rx.fibre.base.slotAndWord a).1 (g.rx.fibre.base.slotAndWord a).2
  | 5 => .tx .radio (g.tx.radio.base.slotAndWord a).1 (g.tx.radio.base.slotAndWord a).2
  | 6 => .rx .radio (g.rx.radio.base.slotAndWord a).1 (g.rx.radio.base.slotAndWord a).2
  | _ => .ordinary

/-- A region that holds an address is told by its place. -/
theorem holds_regionAt {g : Geometry} {a : Addr} {r : Region} (h : g.holds a r) : r = g.regionAt a r.place := by
  cases r with
  | svcTx i k => obtain ⟨-, rfl, rfl⟩ := h; rfl
  | svcRx i k => obtain ⟨-, rfl, rfl⟩ := h; rfl
  | header w => obtain ⟨-, rfl⟩ := h; rfl
  | tx p i k => cases p <;> (obtain ⟨-, rfl, rfl⟩ := h; rfl)
  | rx p i k => cases p <;> (obtain ⟨-, rfl, rfl⟩ := h; rfl)
  | ordinary => rfl

/-- Under a geometry that START accepts, every address of a region is that region's (R5, R6). -/
theorem regionOf_of_holds {s : State} (fit : s.geo.fits) {a : Addr} {r : Region} (h : s.geo.holds a r) :
    s.regionOf a = r := by
  have found := regionOf_holds s a
  by_cases out : r = .ordinary
  · rw [out] at h ⊢
    exact holds_ordinary_only h found
  · by_cases missed : s.regionOf a = .ordinary
    · rw [missed] at found
      exact absurd (holds_ordinary_only found h) out
    · obtain ⟨p, atP, inP⟩ := holds_span found missed
      obtain ⟨q, atQ, inQ⟩ := holds_span h out
      rw [holds_regionAt found, holds_regionAt h, span_unique fit atP atQ inP inQ]

theorem regionOf_ordinary_iff (s : State) (a : Addr) : s.regionOf a = .ordinary ↔ s.geo.holds a .ordinary := by
  constructor
  · intro h
    have found := regionOf_holds s a
    rwa [h] at found
  · exact fun h => holds_ordinary_only h (regionOf_holds s a)

/-- Word k of slot i of a ring stands 256 words a base step and 8 words a slot on (R2). -/
theorem slotAddr_eq (b : BaseSetting) (i k : Nat) : slotAddr b i k = BitVec.ofNat 24 (256 * b.value.toNat + 8 * i + k) := by
  rw [slotAddr, BaseSetting.addr, Nat.mul_comm]

/-! ### Treatments -/

theorem treatment_unclassified {s : State} {c : NearCycle} (a : Addr) (h : s.pcf.part = .config ∨ c.msetn = false) :
    s.treatment c a = .pass := if_pos h.symm

section
variable {s : State} {c : NearCycle} {a : Addr} (part : s.pcf.part ≠ .config) (msetn : c.msetn = true)
include part msetn

theorem treatment_header {w : Nat} (r : s.regionOf a = .header w) :
    s.treatment c a = if c.dir = .write ∧ ¬ mayWriteHeader w c.tag = true then .guarded (headerPath w) else .pass := by
  simp [State.treatment, part, msetn, r]

theorem treatment_tx {p : Path} {i k : Nat} (r : s.regionOf a = .tx p i k) :
    s.treatment c a = if c.dir = .write ∧ tagPath c.tag ≠ some p then .guarded (some p) else .pass := by
  simp [State.treatment, part, msetn, r]

theorem treatment_rx {p : Path} {i k : Nat} (r : s.regionOf a = .rx p i k) : s.treatment c a = .pass := by
  simp [State.treatment, part, msetn, r]

theorem treatment_ordinary (r : s.regionOf a = .ordinary) : s.treatment c a = .pass := by
  simp [State.treatment, part, msetn, r]

theorem treatment_svcTx {i k : Nat} (r : s.regionOf a = .svcTx i k) :
    s.treatment c a = if isController c.tag then s.svcTxTreatment c.dir i k else .pass := by
  simp [State.treatment, part, msetn, r]

theorem treatment_svcRx {i k : Nat} (r : s.regionOf a = .svcRx i k) :
    s.treatment c a = if isController c.tag then s.svcRxTreatment i k else .pass := by
  simp [State.treatment, part, msetn, r]

end

theorem isController_terminal {t : Tag} (h : t = .fibreTerm ∨ t = .radioTerm) : isController t = false := by
  rcases h with rfl | rfl <;> rfl

/-- A controller word to a service transmit slot, by the part state and the state of its entry (R26 to R28, R44). -/
theorem svcTxTreatment_cases (s : State) (dir : Dir) (i k : Nat) :
    (s.pcf.part = .starting → s.svcTxTreatment dir i k = .hold) ∧
    (s.pcf.part = .active →
      ((s.entry i).state = .withdrawing → s.svcTxTreatment dir i k = .hold) ∧
      ((s.entry i).state = .placing → s.svcTxTreatment dir i k = if s.opWaits i then .pass else .hold) ∧
      ((s.entry i).state = .free ∨ (s.entry i).state = .posted ∨ (s.entry i).state = .deferred ∨
        (s.entry i).state = .done ∨ (s.entry i).state = .skipped → s.svcTxTreatment dir i k = .pass)) ∧
    (s.pcf.part = .active ∨ s.pcf.part = .halted →
      (s.entry i).state = .placed ∨ (s.entry i).state = .fetched →
      (dir = .write → s.svcTxTreatment dir i k = .pass) ∧
      (dir = .read → ∀ p ps, (s.entry i).path = some p → (s.entry i).pslot = some ps →
        s.svcTxTreatment dir i k = .redirect (s.txAddr p ps k))) ∧
    (s.pcf.part = .halted → (s.entry i).state ≠ .placed → (s.entry i).state ≠ .fetched →
      s.svcTxTreatment dir i k = .pass) := by
  refine ⟨fun part => ?_, fun part => ⟨fun st => ?_, fun st => ?_, fun st => ?_⟩, fun part st => ⟨fun d => ?_, ?_⟩,
    fun part placed fetched => ?_⟩
  · simp [State.svcTxTreatment, part]
  · simp [State.svcTxTreatment, part, st]
  · simp [State.svcTxTreatment, part, st]
  · rcases st with st | st | st | st | st <;> simp [State.svcTxTreatment, part, st]
  · rcases part with part | part <;> rcases st with st | st <;> simp [State.svcTxTreatment, part, st, d]
  · intro d p ps path pslot
    rcases part with part | part <;> rcases st with st | st <;>
      simp [State.svcTxTreatment, part, st, d, State.placedAddr, path, pslot]
  · cases st : (s.entry i).state with
    | placed => exact absurd st placed
    | fetched => exact absurd st fetched
    | _ => simp [State.svcTxTreatment, part, st]

/-- A controller word to a service receive slot, by the part state and its entry (R84, R89). -/
theorem svcRxTreatment_cases (s : State) (i k : Nat) :
    (s.pcf.part = .starting → s.svcRxTreatment i k = .hold) ∧
    (s.pcf.part = .active ∨ s.pcf.part = .halted →
      (s.rxEntry i = .empty → s.svcRxTreatment i k = .pass) ∧
      (∀ p ps, s.rxEntry i = .filled p ps → s.svcRxTreatment i k = .redirect (s.rxAddr p ps k))) := by
  refine ⟨fun part => ?_, fun part => ⟨fun entry => ?_, fun p ps entry => ?_⟩⟩
  · simp [State.svcRxTreatment, part]
  · rcases part with part | part <;> simp [State.svcRxTreatment, part, entry]
  · rcases part with part | part <;> simp [State.svcRxTreatment, part, entry]

/-- Settles O9: the HOLD line by what can be granted (`holdAsserted_far`), the regions by what holds an address
(`regionOf_holds`, `regionOf_of_holds`), and the treatment of a word by its region. -/
theorem wordTreatments : Obligations.WordTreatments := by
  refine ⟨?_, ?_, fun s c a => ⟨treatment_unclassified a, fun part msetn => ?_⟩⟩
  · intro s asserted reissue short copy wins
    have won : s.nearWins = true ↔ wins := nearWins_iff s
    refine ⟨fun low => by simp [State.holdLevel, low], fun rstn => ?_⟩
    have level : asserted ↔ s.holdAsserted = true := holdLevel_iff rstn
    refine ⟨fun idle => ?_, fun c near => ⟨fun carried => ?_, fun cfgn dead => ⟨?_, fun held => ?_, fun fa far => ?_⟩⟩⟩
    · rw [level, holdAsserted_idle rstn idle]; decide
    · rw [level, holdAsserted_carried rstn near carried]; decide
    · rintro ⟨p, guarded⟩
      rw [level, holdAsserted_guarded rstn near cfgn dead guarded]; decide
    · rw [level, holdAsserted_held near cfgn dead held]
    · rw [level, holdAsserted_far rstn near cfgn dead far]
      refine ⟨fun busy => ?_, fun free => ?_, fun last run => ?_⟩
      · rw [grantable_busy fa busy]; decide
      · rw [grantable_free fa free, Bool.not_eq_true', ← won, Bool.not_eq_true]
      · rw [Bool.not_eq_true', ← Bool.not_eq_true, grantable_run fa run, won, not_or]
  · intro s at256 serviceWords pathWords within slotIs
    have found : ∀ a r, s.regionOf a = r → s.geo.holds a r := fun a r h => h ▸ regionOf_holds s a
    refine ⟨fun a i k => found a (.svcTx i k), fun a i k => found a (.svcRx i k), fun a w => found a (.header w),
      fun a p i k => found a (.tx p i k), fun a p i k => found a (.rx p i k), regionOf_ordinary_iff s, fun fit => ?_,
      fun i k => ⟨slotAddr_eq _ i k, fun p => ⟨slotAddr_eq _ i k, slotAddr_eq _ i k⟩⟩⟩
    exact ⟨fun a i k h => regionOf_of_holds fit (r := .svcTx i k) h,
      fun a i k h => regionOf_of_holds fit (r := .svcRx i k) h,
      fun a h => regionOf_of_holds fit (r := .header _) ⟨h, rfl⟩,
      fun a p i k h => regionOf_of_holds fit (r := .tx p i k) h,
      fun a p i k h => regionOf_of_holds fit (r := .rx p i k) h⟩
  · refine ⟨fun w r => ?_, fun i k r => ?_, fun i k r => ?_, fun p i k => treatment_rx part msetn,
      treatment_ordinary part msetn, fun i k r terminal => ?_, fun i k r controller => ?_, fun i k r terminal => ?_,
      fun i k r controller => ?_⟩
    · rw [treatment_header part msetn r]
      simp only [mayWriteHeader_iff]
      rfl
    · rw [treatment_tx part msetn r]
      simp only [ne_eq, tagPath_iff]
    · rw [treatment_tx part msetn r]
      simp only [ne_eq, tagPath_iff]
    · rw [treatment_svcTx part msetn r, isController_terminal terminal]
      rfl
    · rw [treatment_svcTx part msetn r, if_pos ((isController_iff _).2 controller)]
      exact svcTxTreatment_cases s c.dir i k
    · rw [treatment_svcRx part msetn r, isController_terminal terminal]
      rfl
    · rw [treatment_svcRx part msetn r, if_pos ((isController_iff _).2 controller)]
      exact svcRxTreatment_cases s i k

end Sys2Proof.Machine

/-! SUPPORT. Setting writes: what a taken write stores and what reads find of it (R177 to R182), what follows of it at once
(R93, R116, R147, R153), and the tables a size setting resizes (R178). -/

namespace Sys2Proof.Machine

/-! ### The settings as lists of items -/

/-- The items of a settings group as numbers, in the order of their items; a POLICY item is that of class x (R178, R179). -/
def Settings.items (st : Settings) (x : Nat) : Nat → List Nat
  | 0 => [st.bus.length, st.bus.order, st.bus.polarity]
  | 1 =>
    [st.geometry.svcTx.base.value.toNat, st.geometry.svcTx.size, st.geometry.svcRx.base.value.toNat,
      st.geometry.svcRx.size, st.geometry.header.value.toNat, st.geometry.tx.fibre.base.value.toNat,
      st.geometry.tx.fibre.size, st.geometry.rx.fibre.base.value.toNat, st.geometry.rx.fibre.size,
      st.geometry.tx.radio.base.value.toNat, st.geometry.tx.radio.size, st.geometry.rx.radio.base.value.toNat,
      st.geometry.rx.radio.size]
  | 2 =>
    let p := st.policy.getD x (defaultPolicy x)
    [[Action.pass, .defer, .skip].idxOf p.normal, [Action.pass, .defer, .skip].idxOf p.soft,
      [Action.pass, .defer, .skip].idxOf p.hard, [Action.pass, .defer, .skip].idxOf p.battery, p.fibreLabel.toNat,
      p.radioLabel.toNat, if p.metered then 1 else 0]
  | 3 =>
    [st.timing.heartbeat, st.timing.silence.fibre, st.timing.silence.radio, st.timing.confirm.fibre,
      st.timing.confirm.radio, st.timing.stall, st.timing.trial1, st.timing.trial2, st.timing.trial3,
      st.timing.radioTrial, st.timing.deferralAge, st.timing.voiceQuiet, st.timing.emergencyQuiet,
      st.timing.failbackWait, st.timing.flapWindow, st.timing.flapLimit]
  | 4 =>
    [[Standby.alwaysOn, .onDemand].idxOf st.radio.standby, st.radio.attach, st.radio.powerOff, st.radio.retry,
      st.radio.keep, st.radio.mainsConfirm]
  | 5 =>
    [st.metering.softCap, st.metering.hardCap, st.metering.unit, st.metering.amount, st.metering.period,
      st.metering.ceiling]
  | _ => []

/-- The settings after a write of a group, item and index (R177). -/
def Settings.stored (st : Settings) (g i x : Nat) (v : Word) : Settings :=
  match g with
  | 0 => { st with bus := storeBus st.bus i v.toNat }
  | 1 => { st with geometry := storeGeometry st.geometry i v }
  | 2 =>
    { st with policy := st.policy.set x (storePolicy (st.policy.getD x (defaultPolicy x)) x i v) }
  | 3 => { st with timing := storeTiming st.timing i v.toNat }
  | 4 => { st with radio := storeRadio st.radio i v.toNat }
  | 5 => { st with metering := storeMetering st.metering i v.toNat }
  | _ => st

/-- The value a write leaves in a setting: as written, or the default when it is outside the range (R177). -/
def settingValue (g i x v : Nat) : Nat :=
  if (settingRange g i x).1 ≤ v ∧ v ≤ (settingRange g i x).2.1 then v else (settingRange g i x).2.2

theorem settingsGroup_cases {g : Nat} (hg : g ≤ 5) : g = 0 ∨ g = 1 ∨ g = 2 ∨ g = 3 ∨ g = 4 ∨ g = 5 := by
  omega

/-- The readings of the settings groups are their items. -/
theorem reading_items (s : State) (g i x : Nat) (hg : g ≤ 5) : s.reading g i x = (s.sdc.settings.items x g).getD i 0 := by
  rcases settingsGroup_cases hg with rfl | rfl | rfl | rfl | rfl | rfl <;> rfl

/-- Only a POLICY item has an index. -/
theorem items_index (st : Settings) (g x y : Nat) (hg : g ≠ 2) : st.items x g = st.items y g := by
  unfold Settings.items
  split
  case h_3 => exact absurd rfl hg
  all_goals rfl

/-- A bus word lies in a range of all its values. -/
theorem settingValue_whole {g i x d : Nat} (v : Word) (h : settingRange g i x = (0, 65535, d)) :
    settingValue g i x v.toNat = v.toNat := by
  have word : v.toNat ≤ 65535 := by
    have := v.isLt
    omega
  rw [settingValue, h]
  exact if_pos ⟨Nat.zero_le _, word⟩

theorem actionOf_value (v : Nat) (d : Action) :
    [Action.pass, .defer, .skip].idxOf (actionOf v d) =
      if 0 ≤ v ∧ v ≤ 2 then v else [Action.pass, .defer, .skip].idxOf d := by
  match v with
  | 0 => rfl
  | 1 => rfl
  | 2 => rfl
  | n + 3 => rw [if_neg (by omega)]; rfl

theorem meteredOf_value (v : Nat) (d : Bool) :
    (if meteredOf v d then 1 else 0) = if 0 ≤ v ∧ v ≤ 1 then v else if d then 1 else 0 := by
  match v with
  | 0 => rfl
  | 1 => rfl
  | n + 2 => exact (if_neg (by omega)).symm

theorem standbyOf_value (v : Nat) :
    [Standby.alwaysOn, .onDemand].idxOf (standbyOf v) = if 0 ≤ v ∧ v ≤ 1 then v else 0 := by
  match v with
  | 0 => rfl
  | 1 => rfl
  | n + 2 => rw [if_neg (by omega)]; rfl

/-! ### The item a write stores -/

section
variable (st : Settings) (x : Nat) (v : Word)

theorem stored_bus {i : Nat} (h : i ≤ 2) :
    (st.stored 0 i x v).items x 0 = (st.items x 0).set i (settingValue 0 i x v.toNat) := by
  have items : i = 0 ∨ i = 1 ∨ i = 2 := by omega
  rcases items with rfl | rfl | rfl <;> rfl

theorem stored_geometry {i : Nat} (h : i ≤ 12) :
    (st.stored 1 i x v).items x 1 = (st.items x 1).set i (settingValue 1 i x v.toNat) := by
  by_cases size : i = 1 ∨ i = 3 ∨ i = 6 ∨ i = 8 ∨ i = 10 ∨ i = 12
  · rcases size with rfl | rfl | rfl | rfl | rfl | rfl <;> rfl
  · have base : i = 0 ∨ i = 2 ∨ i = 4 ∨ i = 5 ∨ i = 7 ∨ i = 9 ∨ i = 11 := by omega
    rcases base with rfl | rfl | rfl | rfl | rfl | rfl | rfl <;> rw [settingValue_whole v rfl] <;> rfl

/-- The defaults of the policy table are those of the ranges (R61, R178). -/
theorem defaultPolicy_range (h : x ≤ 7) :
    settingRange 2 0 x = (0, 2, [Action.pass, .defer, .skip].idxOf (defaultPolicy x).normal) ∧
    settingRange 2 1 x = (0, 2, [Action.pass, .defer, .skip].idxOf (defaultPolicy x).soft) ∧
    settingRange 2 2 x = (0, 2, [Action.pass, .defer, .skip].idxOf (defaultPolicy x).hard) ∧
    settingRange 2 3 x = (0, 2, [Action.pass, .defer, .skip].idxOf (defaultPolicy x).battery) ∧
    settingRange 2 6 x = (0, 1, if (defaultPolicy x).metered then 1 else 0) := by
  have classes : x = 0 ∨ x = 1 ∨ x = 2 ∨ x = 3 ∨ x = 4 ∨ x = 5 ∨ x = 6 ∨ x = 7 := by omega
  rcases classes with rfl | rfl | rfl | rfl | rfl | rfl | rfl | rfl <;> decide

theorem stored_policy {i : Nat} (hi : i ≤ 6) (hx : x ≤ 7) (known : st.policy.length = 8) :
    (st.stored 2 i x v).items x 2 = (st.items x 2).set i (settingValue 2 i x v.toNat) := by
  have found : (st.stored 2 i x v).policy.getD x (defaultPolicy x) =
      storePolicy (st.policy.getD x (defaultPolicy x)) x i v := by
    show (st.policy.set x _).getD x _ = _
    rw [List.getD_eq_getElem?_getD, List.getElem?_set_self (by omega)]
    rfl
  obtain ⟨normal, soft, hard, battery, metered⟩ := defaultPolicy_range x hx
  unfold Settings.items
  simp only [found]
  generalize st.policy.getD x (defaultPolicy x) = p
  have items : i = 0 ∨ i = 1 ∨ i = 2 ∨ i = 3 ∨ i = 4 ∨ i = 5 ∨ i = 6 := by omega
  rcases items with rfl | rfl | rfl | rfl | rfl | rfl | rfl
  · rw [settingValue, normal, ← actionOf_value]; rfl
  · rw [settingValue, soft, ← actionOf_value]; rfl
  · rw [settingValue, hard, ← actionOf_value]; rfl
  · rw [settingValue, battery, ← actionOf_value]; rfl
  · rw [settingValue_whole v rfl]; rfl
  · rw [settingValue_whole v rfl]; rfl
  · rw [settingValue, metered, ← meteredOf_value]; rfl

theorem stored_timing {i : Nat} (h : i ≤ 15) :
    (st.stored 3 i x v).items x 3 = (st.items x 3).set i (settingValue 3 i x v.toNat) := by
  match i with
  | 0 | 1 | 2 | 3 | 4 | 5 | 6 | 7 | 8 | 9 | 10 | 11 | 12 | 13 | 14 | 15 => rfl
  | n + 16 => omega

theorem stored_radio {i : Nat} (h : i ≤ 5) :
    (st.stored 4 i x v).items x 4 = (st.items x 4).set i (settingValue 4 i x v.toNat) := by
  by_cases standby : i = 0
  · subst standby
    rw [show settingValue 4 0 x v.toNat = _ from (standbyOf_value v.toNat).symm]
    rfl
  · have timed : i = 1 ∨ i = 2 ∨ i = 3 ∨ i = 4 ∨ i = 5 := by omega
    rcases timed with rfl | rfl | rfl | rfl | rfl <;> rfl

theorem stored_metering {i : Nat} (h : i ≤ 6) :
    (st.stored 5 i x v).items x 5 = (st.items x 5).set i (settingValue 5 i x v.toNat) := by
  by_cases whole : i = 0 ∨ i = 1 ∨ i = 3
  · rcases whole with rfl | rfl | rfl <;> rw [settingValue_whole v rfl] <;> rfl
  · have ranged : i = 2 ∨ i = 4 ∨ i = 5 ∨ i = 6 := by omega
    rcases ranged with rfl | rfl | rfl | rfl <;> rfl

/-- A write sets its own item to the value it leaves, and no other item of its group (R177). -/
theorem stored_items {g i : Nat} (hg : g ≤ 5) (hi : i ≤ 15) (known : st.policy.length = 8) (d : definedWrite g i x) :
    (st.stored g i x v).items x g = (st.items x g).set i (settingValue g i x v.toNat) := by
  rcases d with ⟨rfl, h⟩ | ⟨rfl, h⟩ | ⟨rfl, h, hx⟩ | rfl | ⟨rfl, h⟩ | ⟨rfl, h⟩ | ⟨rfl, -⟩
  · exact stored_bus st x v h
  · exact stored_geometry st x v h
  · exact stored_policy st x v h hx known
  · exact stored_timing st x v hi
  · exact stored_radio st x v h
  · exact stored_metering st x v (by omega)
  · omega

/-- A write changes no other group. -/
theorem stored_items_group {g i h : Nat} (y : Nat) (hg : g ≤ 5) (hh : h ≤ 5) (differ : g ≠ h) :
    (st.stored g i x v).items y h = st.items y h := by
  rcases settingsGroup_cases hg with rfl | rfl | rfl | rfl | rfl | rfl <;>
    rcases settingsGroup_cases hh with rfl | rfl | rfl | rfl | rfl | rfl <;>
      first | rfl | exact absurd rfl differ

/-- A POLICY write changes no other class. -/
theorem stored_items_class {i y : Nat} (differ : x ≠ y) : (st.stored 2 i x v).items y 2 = st.items y 2 := by
  have found : (st.stored 2 i x v).policy.getD y (defaultPolicy y) = st.policy.getD y (defaultPolicy y) := by
    show (st.policy.set x _).getD y _ = _
    rw [List.getD_eq_getElem?_getD, List.getElem?_set_ne differ, ← List.getD_eq_getElem?_getD]
  unfold Settings.items
  simp only [found]

/-- Every other setting keeps its value (R177). -/
theorem stored_items_other {g i h j y : Nat} (hg : g ≤ 5) (hi : i ≤ 15) (hh : h ≤ 5) (known : st.policy.length = 8)
    (d : definedWrite g i x) (differ : ¬ (g = h ∧ i = j ∧ (g = 2 → x = y))) :
    ((st.stored g i x v).items y h).getD j 0 = (st.items y h).getD j 0 := by
  by_cases group : g = h
  · subst group
    by_cases sameClass : g = 2 → x = y
    · have item : i ≠ j := fun item => differ ⟨rfl, item, sameClass⟩
      have index : ∀ u : Settings, u.items y g = u.items x g := by
        intro u
        by_cases policy : g = 2
        · rw [sameClass policy]
        · exact items_index u g y x policy
      rw [index, index, stored_items st x v hg hi known d, List.getD_eq_getElem?_getD, List.getElem?_set_ne item,
        ← List.getD_eq_getElem?_getD]
    · obtain ⟨rfl, classes⟩ := Classical.not_imp.1 sameClass
      rw [stored_items_class st x v classes]
  · rw [stored_items_group st x v y hg hh group]

/-- The written setting holds the value the write leaves (R177). -/
theorem stored_items_own {g i : Nat} (hg : g ≤ 5) (hi : i ≤ 15) (known : st.policy.length = 8) (d : definedWrite g i x) :
    ((st.stored g i x v).items x g).getD i 0 = settingValue g i x v.toNat := by
  rw [stored_items st x v hg hi known d, List.getD_eq_getElem?_getD]
  by_cases preset : g = 5 ∧ i = 6
  · obtain ⟨rfl, rfl⟩ := preset
    show 0 = if 0 ≤ v.toNat ∧ v.toNat ≤ 0 then v.toNat else 0
    split <;> omega
  · have listed : i < (st.items x g).length := by
      rcases d with ⟨rfl, h⟩ | ⟨rfl, h⟩ | ⟨rfl, h, -⟩ | rfl | ⟨rfl, h⟩ | ⟨rfl, h⟩ | ⟨rfl, -⟩ <;>
        simp only [Settings.items, List.length_cons, List.length_nil] <;> omega
    rw [List.getElem?_set_self listed]
    rfl

end

/-! ### Reads of settings -/

theorem writeDefined_iff (g i x : Nat) : writeDefined g i x = true ↔ definedWrite g i x := by
  unfold definedWrite
  match g with
  | 0 | 1 | 2 | 3 | 4 | 5 | 6 => simp [writeDefined]
  | n + 7 => simp [writeDefined]

/-- A settings group defines the same items for reads as for writes (R182). -/
theorem readDefined_settings {g : Nat} (i x : Nat) (hg : g ≤ 5) : readDefined g i x = writeDefined g i x := by
  rcases settingsGroup_cases hg with rfl | rfl | rfl | rfl | rfl | rfl <;> rfl

/-- A controller's read of a settings group: the item's value where it is defined, 0 where the read is refused. -/
theorem exec_settingRead {t : State} (b : Addr) (rstn : t.rstn = true) (settle : t.settle = none)
    (near : t.nsi.near = none) (hg : (settingGroup b).toNat ≤ 5) :
    ∃ u, exec (.refusedSettingRead .user b) t = .next u ∧ u.nsi.dataOut =
      if definedWrite (settingGroup b).toNat (settingItem b).toNat (settingIndex b).toNat then
        BitVec.ofNat 16 ((t.sdc.settings.items (settingIndex b).toNat (settingGroup b).toNat).getD (settingItem b).toNat 0)
      else 0 := by
  have judged : t.judges .read .user b := ⟨by simp [State.cycleFits, rstn, near], settle⟩
  have item := (settingItem b).isLt
  refine ⟨readCycle t .user b, rfl, ?_⟩
  split
  · rename_i d
    have taken : judgeRead .user b = none := by
      simp [judgeRead, isController, readDefined_settings _ _ hg, (writeDefined_iff _ _ _).2 d]
    rw [readCycle_answered t .user b judged taken, ← reading_items t _ _ _ hg]
    exact settingWord_reading { t with nsi.near := none } _ _ _ d (by omega)
  · rename_i d
    have refused : judgeRead .user b = some .unknown := by
      have undefined := Bool.eq_false_iff.2 (mt (writeDefined_iff _ _ _).1 d)
      simp [judgeRead, isController, readDefined_settings _ _ hg, undefined]
    rw [readCycle_refused t .user b .unknown judged refused]
    rfl

/-! ### A taken setting write -/

/-- The state with a setting write stored, and nothing else done. -/
def State.storing (s : State) (addr : Addr) (v : Word) : State :=
  { s with
    sdc.settings :=
      s.sdc.settings.stored (settingGroup addr).toNat (settingItem addr).toNat (settingIndex addr).toNat v }

section
variable (s : State) {addr : Addr} (v : Word)

theorem takeSetting_bus (h : (settingGroup addr).toNat = 0) : takeSetting addr v s = s.storing addr v := by
  unfold takeSetting State.storing
  rw [h]
  rfl

theorem takeSetting_geometry (h : (settingGroup addr).toNat = 1) :
    takeSetting addr v s = resizeTables (s.storing addr v) (settingItem addr).toNat := by
  unfold takeSetting State.storing
  rw [h]
  rfl

theorem takeSetting_policy (h : (settingGroup addr).toNat = 2) : takeSetting addr v s = s.storing addr v := by
  unfold takeSetting State.storing
  rw [h]
  rfl

theorem takeSetting_timing (h : (settingGroup addr).toNat = 3) :
    takeSetting addr v s = afterTiming (s.storing addr v) (settingItem addr).toNat := by
  unfold takeSetting State.storing
  rw [h]
  rfl

theorem takeSetting_standby (h : (settingGroup addr).toNat = 4) (i : (settingItem addr).toNat = 0) :
    takeSetting addr v s = takeStandby v s := by
  unfold takeSetting
  rw [h, i]
  rfl

theorem takeSetting_radio (h : (settingGroup addr).toNat = 4) (i : (settingItem addr).toNat ≠ 0) :
    takeSetting addr v s = afterRadio (s.storing addr v) (settingItem addr).toNat := by
  unfold takeSetting State.storing
  rw [h]
  exact if_neg i

theorem takeSetting_metering (h : (settingGroup addr).toNat = 5) :
    takeSetting addr v s = takeMetering (settingItem addr).toNat (settingIndex addr) v s := by
  unfold takeSetting
  rw [h]
  rfl

/-- A refill period computes no regime; a refill that is then due comes about at once (R153). -/
theorem takeSetting_period (h : (settingGroup addr).toNat = 5) (i : (settingItem addr).toNat = 4) :
    takeSetting addr v s = expireIf (s.storing addr v).refillDue refill (s.storing addr v) := by
  rw [takeSetting_metering s v h, State.storing, h, i]
  rfl

/-- A size setting gives its ring's table the number of empty entries it records (R178, log 12). -/
theorem takeSetting_sizes (g : (settingGroup addr).toNat = 1) :
    let geo := (s.storing addr v).sdc.settings.geometry
    let ring (r : RingSetting) : TxRing := ⟨List.replicate (16 * 2 ^ r.size) clearSlot, 0, 0⟩
    ((settingItem addr).toNat = 1 → takeSetting addr v s =
      { s.storing addr v with tsm := ⟨List.replicate (32 * 2 ^ geo.svcTx.size) freeEntry, 0, 0, 0⟩ }) ∧
    ((settingItem addr).toNat = 3 → takeSetting addr v s =
      { s.storing addr v with
        rmu := ⟨List.replicate (32 * 2 ^ geo.svcRx.size) .empty, 0, 0, ⟨⟨0, 0, 0⟩, ⟨0, 0, 0⟩⟩, []⟩ }) ∧
    ((settingItem addr).toNat = 6 → takeSetting addr v s =
      { s.storing addr v with ple.rings.fibre := ring geo.tx.fibre }) ∧
    ((settingItem addr).toNat = 10 → takeSetting addr v s =
      { s.storing addr v with ple.rings.radio := ring geo.tx.radio }) := by
  intro geo ring
  rw [takeSetting_geometry s v g]
  refine ⟨fun e => ?_, fun e => ?_, fun e => ?_, fun e => ?_⟩
  all_goals exact (congrArg (resizeTables _) e).trans rfl

end

/-- The standby policy is stored, also where it is the policy already in force (R112). -/
theorem takeStandby_kept (s : State) (x : Nat) (v : Word) :
    EngineKept { s with sdc.settings := s.sdc.settings.stored 4 0 x v } (takeStandby v s) := by
  unfold takeStandby
  simp only
  split
  · rename_i same
    refine ⟨rfl, rfl, rfl, ?_, fun _ _ hr => .inl hr⟩
    show s.sdc.settings = { s.sdc.settings with radio.standby := standbyOf v.toNat }
    rw [same]
  · split
    · rename_i policy
      have stored : s.sdc.settings.stored 4 0 x v = { s.sdc.settings with radio.standby := .onDemand } := by
        rw [← policy]; rfl
      rw [stored, policy]
      apply EngineKept.settled
      split
      · exact .of_lasting (startKeep_lasting _)
      · exact .of_lasting (evalStandby_lasting _)
    · rename_i policy
      have stored : s.sdc.settings.stored 4 0 x v = { s.sdc.settings with radio.standby := .alwaysOn } := by
        rw [← policy]; rfl
      rw [stored, policy]
      exact (EngineKept.of_lasting (stopKeep_lasting _)).settled

theorem takeMetering_kept (s : State) (i : Nat) (x : BitVec 8) (v : Word) :
    EngineKept { s with sdc.settings := s.sdc.settings.stored 5 i x.toNat v } (takeMetering i x v s) := by
  unfold takeMetering
  split
  · exact (EngineKept.of_lasting (computeRegime_lasting _)).settled
  · exact (EngineKept.of_lasting (computeRegime_lasting _)).settled
  · exact .of_lasting rfl
  · refine .of_lasting ((computeRegime_lasting _).trans ?_)
    split <;> rfl
  · simp only
    split
    · exact expireIf_kept _ _ _ (refill_lasting _)
    · exact .of_lasting rfl

/-- A taken setting write stores its value, and what follows of it leaves RSTN, the settle, the near side and every setting
alone. -/
theorem takeSetting_stored (s : State) {addr : Addr} (v : Word) (hg : (settingGroup addr).toNat ≤ 5) :
    EngineKept (s.storing addr v) (takeSetting addr v s) := by
  have groups : (settingGroup addr).toNat = 0 ∨ (settingGroup addr).toNat = 1 ∨ (settingGroup addr).toNat = 2 ∨
      (settingGroup addr).toNat = 3 ∨ (settingGroup addr).toNat = 4 ∨ (settingGroup addr).toNat = 5 := by omega
  rcases groups with h | h | h | h | h | h
  · rw [takeSetting_bus s v h]; exact .refl _
  · rw [takeSetting_geometry s v h]; exact .of_lasting (resizeTables_lasting _ _)
  · rw [takeSetting_policy s v h]; exact .refl _
  · rw [takeSetting_timing s v h]; exact afterTiming_kept _ _
  · by_cases standby : (settingItem addr).toNat = 0
    · rw [takeSetting_standby s v h standby, State.storing, h, standby]
      exact takeStandby_kept s _ v
    · rw [takeSetting_radio s v h standby]; exact afterRadio_kept _ _
  · rw [takeSetting_metering s v h, State.storing, h]
    exact takeMetering_kept s _ _ v

/-- The decoder passes a supervisor's write that is defined, in its part state, and not forbidden to class 1. -/
theorem judgeWrite_setting (s : State) (addr : Addr) (v : Word)
    (d : definedWrite (settingGroup addr).toNat (settingItem addr).toNat (settingIndex addr).toNat)
    (hg : (settingGroup addr).toNat ≤ 5)
    (config : ((settingGroup addr).toNat = 0 ∨ (settingGroup addr).toNat = 1 ∨
      ((settingGroup addr).toNat = 5 ∧ (settingItem addr).toNat = 6)) → s.pcf.part = .config)
    (classOne : (settingGroup addr).toNat = 2 → (settingIndex addr).toNat = 1 →
      ¬ (((settingItem addr).toNat ≤ 3 ∧ (v = 1 ∨ v = 2)) ∨ ((settingItem addr).toNat = 6 ∧ v = 1))) :
    judgeWrite s .supervisor addr v = none := by
  have one : v.toNat = 1 ↔ v = 1 := ⟨fun h => BitVec.eq_of_toNat_eq h, fun h => h ▸ rfl⟩
  have two : v.toNat = 2 ↔ v = 2 := ⟨fun h => BitVec.eq_of_toNat_eq h, fun h => h ▸ rfl⟩
  have defined := (writeDefined_iff _ _ _).2 d
  have inState : ¬ (configOnly (settingGroup addr).toNat (settingItem addr).toNat = true ∧ s.pcf.part ≠ .config) := by
    rintro ⟨only, part⟩
    exact part (config (by simpa [configOnly, or_assoc] using only))
  have command : ¬ ((settingGroup addr).toNat = 6 ∧ commandInRange (settingItem addr).toNat v.toNat = false) := by omega
  have allowed : ¬ classOneForbids (settingGroup addr).toNat (settingItem addr).toNat (settingIndex addr).toNat v.toNat =
      true := by
    intro forbids
    simp only [classOneForbids, Bool.and_eq_true, Bool.or_eq_true, decide_eq_true_iff, one, two] at forbids
    exact classOne forbids.1.1 forbids.1.2 forbids.2
  unfold judgeWrite
  rw [if_neg (fun h => h rfl), if_neg (by rw [defined]; decide), if_neg inState, if_neg command, if_neg allowed]

/-- Every command that writes a setting stores it as SETTING_WRITE does. -/
theorem exec_settingWrite {c : Instr} {addr : Addr} {v : Word} {s : State}
    (h : writeOf c = some (.supervisor, addr, v)) (judges : s.judges .write .supervisor addr)
    (hg : (settingGroup addr).toNat ≤ 5)
    (judged : judgeWrite { s with nsi.near := none } .supervisor addr v = none) :
    exec c s = .next (takeSetting addr v { s with nsi.near := none }) := by
  have plain : ∀ take : State → State,
      take { s with nsi.near := none } = takeSetting addr v { s with nsi.near := none } →
      writeCycle s .supervisor addr v noRefusal take = takeSetting addr v { s with nsi.near := none } :=
    fun take same => (writeCycle_taken s _ _ v noRefusal take judges judged rfl).trans same
  have command : ∀ (item : BitVec 4) (x : BitVec 8), addr ≠ settingAddr 6 item x := by
    rintro item x rfl
    rw [settingGroup_settingAddr] at hg
    exact absurd hg (by decide)
  cases c with
  | settingWrite tag a w =>
    obtain ⟨rfl, rfl, rfl⟩ : tag = .supervisor ∧ a = addr ∧ w = v := by simpa [writeOf] using h
    refine congrArg _ (writeCycle_taken s _ _ w _ _ judges judged ?_)
    rw [settingRefusal, if_neg (by omega)]
  | standbyPolicySetting tag x w =>
    obtain ⟨rfl, rfl, rfl⟩ : tag = .supervisor ∧ settingAddr 4 0 x = addr ∧ w = v := by simpa [writeOf] using h
    exact congrArg _ (plain _ (takeSetting_standby _ w (by simp) (by simp)).symm)
  | capSetting cap tag x w =>
    cases cap with
    | soft =>
      obtain ⟨rfl, rfl, rfl⟩ : tag = .supervisor ∧ settingAddr 5 0 x = addr ∧ w = v := by simpa [writeOf] using h
      refine congrArg _ (plain _ ?_)
      rw [takeSetting_metering _ w (by simp)]
      simp [takeMetering]
    | hard =>
      obtain ⟨rfl, rfl, rfl⟩ : tag = .supervisor ∧ settingAddr 5 1 x = addr ∧ w = v := by simpa [writeOf] using h
      refine congrArg _ (plain _ ?_)
      rw [takeSetting_metering _ w (by simp)]
      simp [takeMetering]
  | poolCeilingSetting tag x w =>
    obtain ⟨rfl, rfl, rfl⟩ : tag = .supervisor ∧ settingAddr 5 5 x = addr ∧ w = v := by simpa [writeOf] using h
    refine congrArg _ (plain _ ?_)
    rw [takeSetting_metering _ w (by simp)]
    simp [takeMetering]
  | meterPreset tag x w =>
    obtain ⟨rfl, rfl, rfl⟩ : tag = .supervisor ∧ settingAddr 5 6 x = addr ∧ w = v := by simpa [writeOf] using h
    refine congrArg _ (plain _ ?_)
    rw [takeSetting_metering _ w (by simp)]
    simp [takeMetering]
  | start tag x w | halt tag x w | reconfigure tag x w | forcePath tag x w | failbackNow tag x w | failbackMode tag x w
  | radioRestart tag x w | periodRestart tag x w | clearAlerts tag x w | clearFaults tag x w | alertEnable tag x w =>
    simp only [writeOf, Option.some.injEq, Prod.mk.injEq] at h
    exact absurd h.2.1.symm (command _ x)
  | _ => cases h

/-! ### Expiries at once -/

/-- The timers' conditions are the model's own. -/
theorem expiries_due (s : State) : s.expiries =
    [(s.settleDue, .settleEnd), (s.confirmDue .fibre, .confirmTimerExpiry .fibre),
      (s.confirmDue .radio, .confirmTimerExpiry .radio), (s.mainsDue, .mainsConfirmExpiry),
      (s.beatDue, .heartbeatIntervalEnd), (s.stallDue .fibre, .stallTimerExpiry .fibre),
      (s.stallDue .radio, .stallTimerExpiry .radio), (s.attachDue, .attachTimerExpiry),
      (s.powerOffDue, .powerOffTimerExpiry), (s.keepDue, .keepTimerExpiry), (s.clock.minDue, .flapExpiry),
      (s.clock.secDue, .deferralExpiry), (s.quietDue .voice, .quietTimerExpiry .voice),
      (s.quietDue .emergency, .quietTimerExpiry .emergency), (s.waitDue, .failbackWaitExpiry),
      (s.refillDue, .creditRefill)] := by
  have line : ∀ p, s.confirmDue p = (match (s.pathRec p).line with
      | .falling n => decide (s.sdc.settings.timing.confirm.get p * 1024 ≤ n) | _ => false) := by
    intro p; unfold State.confirmDue; cases (s.pathRec p).line <;> rfl
  have mains : s.mainsDue = (match s.umt.mains with
      | .falling n => decide (s.sdc.settings.radio.mainsConfirm * 1024 ≤ n) | _ => false) := by
    unfold State.mainsDue; cases s.umt.mains <;> rfl
  unfold State.expiries
  simp only [State.settleDue, State.beatDue, State.stallDue, State.attachDue, State.powerOffDue, State.keepDue,
    State.quietDue, State.waitDue, State.refillDue, reached_any, ms, secs, mins, State.activity, State.quietTime, line,
    mains] <;> rfl

/-- An expiry that is due comes about as its own command; one that is not changes nothing. -/
theorem expired_eq {s : State} {c : Instr} {due : Bool} (listed : (true, c) ∈ s.expiries ↔ due = true) :
    s.expired c = if due then s.ran c else s := by
  rw [State.expired]
  exact ite_congr (propext listed) (fun _ => rfl) fun _ => rfl

theorem reached_isSome {t : Timer} {n : Nat} (h : Timer.reached t n = true) : t.isSome = true := by
  cases t with
  | none => cases h
  | some k => rfl

section
variable {s : State} (rstn : s.rstn = true)
include rstn

/-- An expiry whose command acts where its timer runs, and whose timer runs where it is due. -/
theorem expired_expiry {c : Instr} {due runs : Bool} {act : State → State}
    (listed : (true, c) ∈ s.expiries ↔ due = true) (ran : s.ran c = expiry s runs act) (running : due = true → runs = true) :
    s.expired c = expireIf due act s := by
  rw [expired_eq listed, ran, expiry, rstn]
  cases due with
  | true => rw [running rfl]; rfl
  | false => rfl

theorem expired_confirm (p : Path) :
    s.expired (.confirmTimerExpiry p) = expireIf (s.confirmDue p) (fun t => badConfirm t p) s := by
  have ran : s.ran (.confirmTimerExpiry p) = expiry s (s.confirmRuns p) (fun t => badConfirm t p) := rfl
  refine expired_expiry rstn (by cases p <;> simp [expiries_due]) ran fun due => ?_
  unfold State.confirmDue at due
  unfold State.confirmRuns
  cases line : (s.pathRec p).line <;> simp [line] at due ⊢

theorem expired_stall (p : Path) :
    s.expired (.stallTimerExpiry p) = expireIf (s.stallDue p) (fun t => stallExpires t p) s := by
  have ran : s.ran (.stallTimerExpiry p) = expiry s (s.pathRec p).stall.isSome (fun t => stallExpires t p) := rfl
  refine expired_expiry rstn (by cases p <;> simp [expiries_due]) ran fun due => ?_
  rw [State.stallDue, Bool.and_eq_true] at due
  exact reached_isSome due.2

theorem expired_quiet (a : Activity) :
    s.expired (.quietTimerExpiry a) = expireIf (s.quietDue a) (fun t => quietExpires t a) s := by
  have ran : s.ran (.quietTimerExpiry a) = expiry s (s.activity a).timer.isSome (fun t => quietExpires t a) := rfl
  exact expired_expiry rstn (by cases a <;> simp [expiries_due]) ran reached_isSome

theorem expired_wait : s.expired .failbackWaitExpiry = expireIf s.waitDue waitExpires s := by
  have ran : s.ran .failbackWaitExpiry = expiry s s.waitRuns waitExpires := rfl
  refine expired_expiry rstn (by simp [expiries_due]) ran fun due => ?_
  rw [State.waitDue, Bool.and_eq_true] at due
  rw [State.waitRuns, Bool.and_eq_true]
  exact ⟨reached_isSome due.2, due.1⟩

theorem expired_attach : s.expired .attachTimerExpiry = expireIf s.attachDue attachExpires s := by
  have ran : s.ran .attachTimerExpiry = expiry s s.pmn.power.attach.isSome attachExpires := rfl
  exact expired_expiry rstn (by simp [expiries_due]) ran reached_isSome

theorem expired_mains : s.expired .mainsConfirmExpiry = expireIf s.mainsDue mainsAbsent s := by
  have ran : s.ran .mainsConfirmExpiry = expiry s s.mainsRuns mainsAbsent := rfl
  refine expired_expiry rstn (by simp [expiries_due]) ran fun due => ?_
  unfold State.mainsDue at due
  unfold State.mainsRuns
  cases mains : s.umt.mains <;> simp [mains] at due ⊢

theorem expired_refill : s.expired .creditRefill = expireIf s.refillDue refill s := by
  have ran : s.ran .creditRefill = expiry s true refill := rfl
  exact expired_expiry rstn (by simp [expiries_due]) ran fun _ => rfl

theorem expired_powerOff : s.expired .powerOffTimerExpiry = if s.powerOffDue then powerOffExpires s else s := by
  have ran : s.ran .powerOffTimerExpiry = if s.rstn && s.pmn.power.off.isSome then powerOffExpires s else s := rfl
  rw [expired_eq (due := s.powerOffDue) (by simp [expiries_due]), ran, rstn]
  split
  · rename_i due
    rw [reached_isSome due]
    rfl
  · rfl

theorem expired_keep : s.expired .keepTimerExpiry = if s.keepDue then stopKeep s else s := by
  have ran : s.ran .keepTimerExpiry = if s.rstn && s.pmn.power.keep.isSome then stopKeep s else s := rfl
  rw [expired_eq (due := s.keepDue) (by simp [expiries_due]), ran, rstn]
  split
  · rename_i due
    rw [reached_isSome due]
    rfl
  · rfl

/-- A stall time brings the stall timers in line, and takes FIBRE before RADIO (log 23). -/
theorem afterTiming_stall :
    afterTiming s 5 = (s.timersInLine.expired (.stallTimerExpiry .fibre)).expired (.stallTimerExpiry .radio) := by
  have inLine : s.timersInLine.rstn = true := rstn
  have kept := expireIf_kept (s.timersInLine.stallDue .fibre) (fun t => stallExpires t .fibre) s.timersInLine
    (stallExpires_lasting _ _)
  rw [expired_stall inLine .fibre, expired_stall (kept.rstn.trans inLine) .radio, afterTiming, syncTimers_inLine]

end

/-! ### The expiry that follows a stored setting -/

section
variable {s : State} {addr : Addr} (v : Word) (rstn : s.rstn = true)
include rstn

/-- A TIMING setting at or below the elapsed time of the timer it governs makes that timer expire (R93, R116). -/
theorem takeSetting_timing_expires (g : (settingGroup addr).toNat = 3) :
    ((settingItem addr).toNat = 3 →
      takeSetting addr v s = (s.storing addr v).expired (.confirmTimerExpiry .fibre)) ∧
    ((settingItem addr).toNat = 4 →
      takeSetting addr v s = (s.storing addr v).expired (.confirmTimerExpiry .radio)) ∧
    ((settingItem addr).toNat = 5 → takeSetting addr v s =
      ((s.storing addr v).timersInLine.expired (.stallTimerExpiry .fibre)).expired (.stallTimerExpiry .radio)) ∧
    ((settingItem addr).toNat = 11 →
      takeSetting addr v s = (s.storing addr v).expired (.quietTimerExpiry .voice)) ∧
    ((settingItem addr).toNat = 12 →
      takeSetting addr v s = (s.storing addr v).expired (.quietTimerExpiry .emergency)) ∧
    ((settingItem addr).toNat = 13 → takeSetting addr v s = (s.storing addr v).expired .failbackWaitExpiry) := by
  have stored : (s.storing addr v).rstn = true := rstn
  rw [takeSetting_timing s v g]
  generalize s.storing addr v = u at stored ⊢
  refine ⟨fun e => ?_, fun e => ?_, fun e => ?_, fun e => ?_, fun e => ?_, fun e => ?_⟩ <;> rw [e]
  · exact (expired_confirm stored .fibre).symm
  · exact (expired_confirm stored .radio).symm
  · exact afterTiming_stall stored
  · exact (expired_quiet stored .voice).symm
  · exact (expired_quiet stored .emergency).symm
  · exact (expired_wait stored).symm

/-- A RADIO setting at or below the elapsed time of the timer it governs makes that timer expire (R93, R147). -/
theorem takeSetting_radio_expires (g : (settingGroup addr).toNat = 4) :
    ((settingItem addr).toNat = 1 → takeSetting addr v s = (s.storing addr v).expired .attachTimerExpiry) ∧
    ((settingItem addr).toNat = 2 → takeSetting addr v s = (s.storing addr v).expired .powerOffTimerExpiry) ∧
    ((settingItem addr).toNat = 4 → takeSetting addr v s = (s.storing addr v).expired .keepTimerExpiry) ∧
    ((settingItem addr).toNat = 5 → takeSetting addr v s = (s.storing addr v).expired .mainsConfirmExpiry) := by
  have stored : (s.storing addr v).rstn = true := rstn
  have after : (settingItem addr).toNat ≠ 0 →
      takeSetting addr v s = afterRadio (s.storing addr v) (settingItem addr).toNat := takeSetting_radio s v g
  generalize s.storing addr v = u at stored after ⊢
  refine ⟨fun e => ?_, fun e => ?_, fun e => ?_, fun e => ?_⟩ <;> rw [after (by omega), e]
  · exact (expired_attach stored).symm
  · exact (expired_powerOff stored).symm
  · exact (expired_keep stored).symm
  · exact (expired_mains stored).symm

/-- A refill period at or below the elapsed refill time brings a refill (R153). -/
theorem takeSetting_period_expires (g : (settingGroup addr).toNat = 5) (i : (settingItem addr).toNat = 4) :
    takeSetting addr v s = (s.storing addr v).expired .creditRefill :=
  (takeSetting_period s v g i).trans (expired_refill (s := s.storing addr v) rstn).symm

end

/-- A setting that nothing waits on is stored, and nothing else changes. -/
theorem takeSetting_plain (s : State) {addr : Addr} (v : Word)
    (h : (settingGroup addr).toNat = 0 ∨ (settingGroup addr).toNat = 2 ∨
      ((settingGroup addr).toNat = 1 ∧ (settingItem addr).toNat ≠ 1 ∧ (settingItem addr).toNat ≠ 3 ∧
        (settingItem addr).toNat ≠ 6 ∧ (settingItem addr).toNat ≠ 10) ∨
      ((settingGroup addr).toNat = 3 ∧ ((settingItem addr).toNat ≤ 2 ∨
        (6 ≤ (settingItem addr).toNat ∧ (settingItem addr).toNat ≤ 10) ∨ 14 ≤ (settingItem addr).toNat)) ∨
      ((settingGroup addr).toNat = 4 ∧ (settingItem addr).toNat = 3) ∨
      ((settingGroup addr).toNat = 5 ∧ ((settingItem addr).toNat = 2 ∨ (settingItem addr).toNat = 3))) :
    takeSetting addr v s = s.storing addr v := by
  rcases h with h | h | ⟨h, size⟩ | ⟨h, timer⟩ | ⟨h, i⟩ | ⟨h, i⟩
  · exact takeSetting_bus s v h
  · exact takeSetting_policy s v h
  · rw [takeSetting_geometry s v h]
    unfold resizeTables
    split
    case h_5 => rfl
    all_goals omega
  · rw [takeSetting_timing s v h]
    unfold afterTiming
    split
    case h_7 => rfl
    all_goals omega
  · rw [takeSetting_radio s v h (by omega), i]
    rfl
  · rw [takeSetting_metering s v h, State.storing, h]
    rcases i with i | i <;> (rw [i]; rfl)

/-- Settles O18: a write stores its value (`takeSetting_stored`), by which its own item and no other reads differently
(`stored_items_own`, `stored_items_other`), and what follows at once is the expiry or the resized table of its item. -/
theorem writtenSettingReadsBack : Obligations.WrittenSettingReadsBack := by
  intro c addr v s h judges known g i x d hg config classOne
  have item : i ≤ 15 := Nat.le_of_lt_succ (settingItem addr).isLt
  have rstn : s.rstn = true := by
    have fits := judges.1
    rw [State.cycleFits, Bool.and_eq_true] at fits
    exact fits.1
  have judged := judgeWrite_setting { s with nsi.near := none } addr v d hg config classOne
  have kept := takeSetting_stored { s with nsi.near := none } v hg
  have readable := fun b => exec_settingRead b (kept.rstn.trans rstn) (kept.settle.trans judges.2)
    (congrArg Nsi.near kept.nsi)
  refine ⟨takeSetting addr v { s with nsi.near := none }, exec_settingWrite h judges hg judged, kept.rstn.trans rstn,
    kept.settle.trans judges.2, congrArg Nsi.near kept.nsi, ?_, fun b hb other => ?_, fun plain => ?_, ?_⟩
  · obtain ⟨u, read, answer⟩ := readable addr hg
    refine ⟨u, read, answer.trans ((if_pos d).trans (congrArg _ ?_))⟩
    rw [kept.settings]
    exact stored_items_own s.sdc.settings x v hg item known d
  · obtain ⟨u, read, answer⟩ := readable b hb
    obtain ⟨w, read', answer'⟩ := exec_settingRead (t := { s with nsi.near := none }) b rstn judges.2 rfl hb
    refine ⟨u, w, read, read', ?_⟩
    rw [answer, answer', kept.settings]
    have differ : ¬ (g = (settingGroup b).toNat ∧ i = (settingItem b).toNat ∧ (g = 2 → x = (settingIndex b).toNat)) := by
      rintro ⟨group, sameItem, index⟩
      exact other ⟨BitVec.eq_of_toNat_eq group, BitVec.eq_of_toNat_eq sameItem,
        fun two => BitVec.eq_of_toNat_eq (index (congrArg BitVec.toNat two))⟩
    have same := stored_items_other s.sdc.settings x v hg item hb known d differ
    exact ite_congr rfl (fun _ => congrArg _ same) fun _ => rfl
  · rw [kept.settings]
    exact takeSetting_plain _ v plain
  · rw [kept.settings]
    refine ⟨takeSetting_timing_expires v rstn, takeSetting_radio_expires v rstn, takeSetting_period_expires v rstn,
      takeSetting_sizes _ v⟩

end Sys2Proof.Machine

/-! SUPPORT. The service receive ring: the slots its indices name, the entries a release empties, and the run that assigns
waiting path slots to empty ones (R76, R82 to R86). -/

namespace Sys2Proof.Machine

/-! ### Slots of a ring whose size divides 2^16 (R2) -/

section
variable {size : Nat} (divides : size ∣ 2 ^ 16) (a : Word)
include divides

/-- The wrap of an index at 2^16 does not move the slot it names. -/
theorem slotOf_add (j : Nat) : slotOf (a + BitVec.ofNat 16 j) size = (a.toNat + j) % size := by
  rw [slotOf, BitVec.toNat_add, BitVec.toNat_ofNat, Nat.add_mod_mod, Nat.mod_mod_of_dvd _ divides]

/-- Within one turn of the ring an index names each slot once. -/
theorem slotOf_add_ne {i j : Nat} (hij : i < j) (hj : j < size) :
    slotOf (a + BitVec.ofNat 16 j) size ≠ slotOf (a + BitVec.ofNat 16 i) size := by
  rw [slotOf_add divides, slotOf_add divides]
  intro same
  have whole : size ∣ (a.toNat + j) - (a.toNat + i) := Nat.dvd_of_mod_eq_zero (Nat.sub_mod_eq_zero_of_mod_eq same)
  rw [Nat.add_sub_add_left] at whole
  have turn : size ≤ j - i := Nat.le_of_dvd (Nat.sub_pos_of_lt hij) whole
  omega

end

theorem serviceSlots_dvd {code : Nat} (h : code ≤ 3) : serviceSlots code ∣ 2 ^ 16 := by
  rw [serviceSlots, show 32 * 2 ^ code = 2 ^ (5 + code) from (Nat.pow_add 2 5 code).symm]
  exact Nat.pow_dvd_pow 2 (by omega)

theorem svcRxSize_pos (s : State) : 0 < s.svcRxSize := Nat.mul_pos (Nat.succ_pos 31) (Nat.two_pow_pos _)

theorem serviceSlots_le {code : Nat} (h : code ≤ 3) : serviceSlots code ≤ 256 :=
  Nat.mul_le_mul_left 32 (Nat.pow_le_pow_right (n := 2) (by decide) h)

/-- An index steps over the same positions from its successor on. -/
theorem word_add_succ (a : Word) (j : Nat) : a + BitVec.ofNat 16 (j + 1) = a + 1 + BitVec.ofNat 16 j := by
  rw [Nat.add_comm, BitVec.ofNat_add, BitVec.add_assoc]
  rfl

theorem word_add_zero (a : Word) : a + BitVec.ofNat 16 0 = a := BitVec.add_zero a

/-- An index moved by less than 2^16 positions has moved, unless by none. -/
theorem word_add_eq_self {a : Word} {n : Nat} (h : n < 2 ^ 16) : a + BitVec.ofNat 16 n = a ↔ n = 0 := by
  refine ⟨fun same => ?_, fun unmoved => ?_⟩
  · have zero : BitVec.ofNat 16 n = 0#16 := (BitVec.add_right_inj a).mp (same.trans (word_add_zero a).symm)
    have value := congrArg BitVec.toNat zero
    rwa [BitVec.toNat_ofNat, Nat.mod_eq_of_lt h] at value
  · rw [unmoved, word_add_zero]

/-! ### Entries a release empties (R85) -/

/-- The entry holds a slot of the path. -/
def RxEntry.isOf (e : RxEntry) (p : Path) : Bool :=
  match e with
  | .filled q _ => decide (q = p)
  | .empty => false

/-- The service slot that a release reaches after `j` others. -/
def State.releaseSlot (s : State) (j : Nat) : Nat := slotOf (s.rmu.release + BitVec.ofNat 16 j) s.svcRxSize

/-- How many of the `m` entries from the release record on hold a slot of the path. -/
def State.releasedOf (s : State) (m : Nat) (p : Path) : Nat :=
  ((List.range m).filter fun j => (s.rxEntry (s.releaseSlot j)).isOf p).length

/-- A path's records after `m` entries are released. -/
def State.releasedRecs (s : State) (m : Nat) (p : Path) : RxRecs :=
  { s.rxRecs p with consumer := (s.rxRecs p).consumer + BitVec.ofNat 16 (s.releasedOf m p) }

/-- The state with the `m` entries from the release record on emptied, and the records moved past them. -/
def State.emptied (s : State) (m : Nat) : State :=
  { s with
    rmu.entries := (List.range m).foldl (fun l j => l.set (s.releaseSlot j) .empty) s.rmu.entries
    rmu.release := s.rmu.release + BitVec.ofNat 16 m
    rmu.recs := ⟨s.releasedRecs m .fibre, s.releasedRecs m .radio⟩ }

theorem releasedOf_le (s : State) (m : Nat) (p : Path) : s.releasedOf m p ≤ m :=
  Nat.le_trans (List.length_filter_le _ _) (Nat.le_of_eq List.length_range)

theorem rxRecs_emptied (s : State) (m : Nat) (p : Path) : (s.emptied m).rxRecs p = s.releasedRecs m p := by
  cases p <;> rfl

theorem releaseSlot_zero (s : State) : s.releaseSlot 0 = slotOf s.rmu.release s.svcRxSize := by
  rw [State.releaseSlot, word_add_zero]

/-- What is released first, and what follows it. -/
theorem releasedOf_succ (s : State) (m : Nat) (p : Path) :
    s.releasedOf (m + 1) p = s.releasedOf 1 p +
      ((List.range m).filter fun j => (s.rxEntry (s.releaseSlot (j + 1))).isOf p).length := by
  simp only [State.releasedOf, List.range_succ_eq_map, List.range_zero, List.map_nil, List.filter_cons, List.filter_nil,
    List.filter_map, Function.comp_def]
  split <;> simp [Nat.add_comm]

theorem releasedOf_one (s : State) (p : Path) :
    s.releasedOf 1 p = if (s.rxEntry (slotOf s.rmu.release s.svcRxSize)).isOf p then 1 else 0 := by
  simp only [State.releasedOf, List.range_one, List.filter_cons, List.filter_nil, releaseSlot_zero]
  split <;> rfl

theorem emptied_zero (s : State) : s.emptied 0 = s := by
  simp [State.emptied, State.releasedRecs, State.releasedOf, State.rxRecs, PerPath.get]

/-- One turn of the release loop empties one entry. -/
theorem releaseLoop_succ (n : Nat) (s : State) : releaseLoop (n + 1) s = releaseLoop n (s.emptied 1) := by
  rw [releaseLoop]
  cases e : s.rxEntry (slotOf s.rmu.release s.svcRxSize) with
  | empty =>
    refine congrArg (releaseLoop n) ?_
    simp [State.emptied, State.releasedRecs, releasedOf_one, e, RxEntry.isOf, releaseSlot_zero, State.rxRecs, PerPath.get]
  | filled p i =>
    refine congrArg (releaseLoop n) ?_
    cases p <;> simp [State.emptied, State.releasedRecs, releasedOf_one, e, RxEntry.isOf, releaseSlot_zero, State.rxRecs,
      PerPath.get, PerPath.set, setRxRecs]

section
variable {s : State} (divides : s.svcRxSize ∣ 2 ^ 16)
include divides

/-- A release of one entry leaves the entries of the turn's other slots. -/
theorem rxEntry_emptied_one {j : Nat} (hj : j + 1 < s.svcRxSize) :
    (s.emptied 1).rxEntry (s.releaseSlot (j + 1)) = s.rxEntry (s.releaseSlot (j + 1)) := by
  have differ : s.releaseSlot 0 ≠ s.releaseSlot (j + 1) := (slotOf_add_ne divides s.rmu.release j.succ_pos hj).symm
  simp [State.rxEntry, State.emptied, List.getD, differ]

theorem releasedOf_emptied_one {m : Nat} (p : Path) (h : m + 1 ≤ s.svcRxSize) :
    (s.emptied 1).releasedOf m p =
      ((List.range m).filter fun j => (s.rxEntry (s.releaseSlot (j + 1))).isOf p).length := by
  refine congrArg List.length (List.filter_congr fun j hj => ?_)
  have slot : (s.emptied 1).releaseSlot j = s.releaseSlot (j + 1) :=
    congrArg (slotOf · s.svcRxSize) (word_add_succ s.rmu.release j).symm
  rw [slot, rxEntry_emptied_one divides (by have := List.mem_range.mp hj; omega)]

theorem releasedRecs_emptied_one {m : Nat} (p : Path) (h : m + 1 ≤ s.svcRxSize) :
    (s.emptied 1).releasedRecs m p = s.releasedRecs (m + 1) p := by
  simp only [State.releasedRecs, rxRecs_emptied, releasedOf_emptied_one divides p h, releasedOf_succ s m p,
    BitVec.ofNat_add, BitVec.add_assoc]

/-- Emptying one entry, then the `m` from the moved release record on. -/
theorem emptied_one_emptied {m : Nat} (h : m + 1 ≤ s.svcRxSize) : (s.emptied 1).emptied m = s.emptied (m + 1) := by
  have slots : (List.range m).foldl (fun l j => l.set ((s.emptied 1).releaseSlot j) .empty) (s.emptied 1).rmu.entries =
      (List.range (m + 1)).foldl (fun l j => l.set (s.releaseSlot j) .empty) s.rmu.entries := by
    rw [List.range_succ_eq_map, List.foldl_cons, List.foldl_map]
    simp only [State.releaseSlot, Nat.succ_eq_add_one, word_add_succ]
    rfl
  have release : (s.emptied 1).rmu.release + BitVec.ofNat 16 m = s.rmu.release + BitVec.ofNat 16 (m + 1) :=
    (word_add_succ s.rmu.release m).symm
  unfold State.emptied at slots release ⊢
  simp only [slots, release]
  rw [← releasedRecs_emptied_one divides .fibre h, ← releasedRecs_emptied_one divides .radio h]
  rfl

end

/-- A release within the ring empties the entries from the release record on. -/
theorem releaseLoop_emptied (n : Nat) (s : State) (divides : s.svcRxSize ∣ 2 ^ 16) (h : n ≤ s.svcRxSize) :
    releaseLoop n s = s.emptied n := by
  induction n generalizing s with
  | zero => exact (emptied_zero s).symm
  | succ n ih =>
    rw [releaseLoop_succ, ih (s.emptied 1) divides (Nat.le_of_succ_le h), emptied_one_emptied divides h]

/-- The consumer word of a path is written back when a release passed an entry of the path (R86). -/
theorem writeBack_released {s t : State} {m : Nat} (p : Path) (recs : t.rxRecs p = s.releasedRecs m p) (h : m ≤ 256) :
    writeBack s t p =
      if s.releasedOf m p = 0 then t else requestHeader t (rxConsumerWord p) (s.releasedRecs m p).consumer := by
  have bound := releasedOf_le s m p
  have moved : (s.releasedRecs m p).consumer = (s.rxRecs p).consumer ↔ s.releasedOf m p = 0 :=
    word_add_eq_self (by omega)
  rw [writeBack, recs]
  simp only [moved]

theorem requestHeader_rmu (s : State) (w : Nat) (v : Word) : (requestHeader s w v).rmu = s.rmu :=
  (congrArg State.rmu (requestHeader_spec s w v).1).trans rfl

theorem writeBack_rmu (old s : State) (p : Path) : (writeBack old s p).rmu = s.rmu := by
  unfold writeBack
  split
  · rfl
  · exact requestHeader_rmu _ _ _

/-! ### Waiting path slots (R81, R82) -/

theorem waitingSlots_cons (b : Batch) (rest : List Batch) :
    waitingSlots (b :: rest) = List.replicate b.count b.path ++ waitingSlots rest := rfl

/-- The arrival list with the first path slot of its head batch taken. -/
def takeHead (b : Batch) (rest : List Batch) : List Batch :=
  if b.count ≤ 1 then rest else { b with count := b.count - 1 } :: rest

section
variable {b : Batch} {rest : List Batch}

theorem waitingSlots_takeHead (h : 1 ≤ b.count) : waitingSlots (b :: rest) = b.path :: waitingSlots (takeHead b rest) := by
  obtain ⟨n, hn⟩ : ∃ n, b.count = n + 1 := ⟨b.count - 1, by omega⟩
  unfold takeHead
  split
  · rw [waitingSlots_cons, show b.count = 1 by omega]
    rfl
  · rw [waitingSlots_cons, waitingSlots_cons, hn, List.replicate_succ]
    rfl

theorem takeHead_counted (h : ∀ c ∈ b :: rest, 1 ≤ c.count) : ∀ c ∈ takeHead b rest, 1 ≤ c.count := by
  obtain ⟨-, others⟩ := List.forall_mem_cons.mp h
  unfold takeHead
  split
  · exact others
  · exact List.forall_mem_cons.mpr ⟨by simp only; omega, others⟩

theorem takeHead_paths : (takeHead b rest).map (·.path) <:+ (b :: rest).map (·.path) := by
  unfold takeHead
  split
  · exact List.suffix_cons _ _
  · exact List.suffix_refl _

end

/-- Counted batches leave no slot waiting only where there is none. -/
theorem waitingSlots_eq_nil {l : List Batch} (counted : ∀ b ∈ l, 1 ≤ b.count) (h : waitingSlots l = []) : l = [] := by
  cases l with
  | nil => rfl
  | cons b rest => simp [waitingSlots_takeHead (counted b List.mem_cons_self)] at h

/-! ### Assignments (R82) -/

/-- `k` path slots are assigned one after another, each while the ring has room. -/
inductive Assigns : State → State → Nat → Prop
  | done (s : State) : Assigns s s 0
  | more {s t : State} {b : Batch} {rest : List Batch} {k : Nat} (head : s.rmu.arrivals = b :: rest)
      (room : s.rxOccupancy < s.svcRxSize) (tail : Assigns (assignOne s b rest) t k) : Assigns s t (k + 1)

/-- The assignment loop assigns as many as it answers. -/
theorem assignLoop_assigns (n : Nat) (s : State) : Assigns s (assignLoop n s).2 (assignLoop n s).1 := by
  induction n generalizing s with
  | zero => exact .done s
  | succ n ih =>
    unfold assignLoop
    split
    · exact .done s
    · next b rest head =>
      split
      · next room => exact .more head room (ih (assignOne s b rest))
      · exact .done s

/-- It stops for want of fuel, of a waiting slot or of room. -/
theorem assignLoop_stops (n : Nat) (s : State) : (assignLoop n s).1 = n ∨ (assignLoop n s).2.rmu.arrivals = [] ∨
    (assignLoop n s).2.svcRxSize ≤ (assignLoop n s).2.rxOccupancy := by
  induction n generalizing s with
  | zero => exact .inl rfl
  | succ n ih =>
    unfold assignLoop
    split
    · next nothing => exact .inr (.inl nothing)
    · next b rest _ =>
      split
      · exact (ih (assignOne s b rest)).imp_left (congrArg (· + 1))
      · next full => exact .inr (.inr (Nat.le_of_not_lt full))

/-! #### One assignment -/

/-- A count of a path in a list, as an advance of its record: the head's share, then the tail's. -/
theorem count_cons_word (p q : Path) (l : List Path) :
    BitVec.ofNat 16 ((q :: l).count p) = BitVec.ofNat 16 ([q].count p) + BitVec.ofNat 16 (l.count p) := by
  rw [← BitVec.ofNat_add, ← List.count_append, List.singleton_append]

theorem assignOne_arrivals (s : State) (b : Batch) (rest : List Batch) :
    (assignOne s b rest).rmu.arrivals = takeHead b rest := rfl

theorem assignOne_available (s : State) (b : Batch) (rest : List Batch) :
    (assignOne s b rest).rmu.available = s.rmu.available + 1 := rfl

theorem assignOne_rxRecs (s : State) (b : Batch) (rest : List Batch) (p : Path) :
    (assignOne s b rest).rxRecs p =
      { s.rxRecs p with assigned := (s.rxRecs p).assigned + BitVec.ofNat 16 ([b.path].count p) } := by
  refine (rxRecs_setRxRecs s b.path p _).trans ?_
  by_cases h : p = b.path
  · simp [h]
  · simp [h, Ne.symm h]

theorem assignOne_occupancy (s : State) (b : Batch) (rest : List Batch) (h : s.rxOccupancy < 256) :
    (assignOne s b rest).rxOccupancy = s.rxOccupancy + 1 := by
  simp only [State.rxOccupancy, advance, assignOne_available] at h ⊢
  rw [show (assignOne s b rest).rmu.release = s.rmu.release from rfl]
  bv_omega

theorem assignOne_rxEntry (s : State) (b : Batch) (rest : List Batch) (i : Nat) (size : s.rmu.entries.length = s.svcRxSize) :
    (assignOne s b rest).rxEntry i = if i = slotOf s.rmu.available s.svcRxSize
      then .filled b.path (slotOf (s.rxRecs b.path).assigned (s.rxSize b.path)) else s.rxEntry i := by
  have slot : slotOf s.rmu.available s.svcRxSize < s.rmu.entries.length :=
    size.symm ▸ Nat.mod_lt _ (svcRxSize_pos s)
  simp only [State.rxEntry, assignOne, List.getD_eq_getElem?_getD, List.getElem?_set]
  by_cases h : i = slotOf s.rmu.available s.svcRxSize
  · simp [h, slot]
  · simp [h, Ne.symm h]

theorem Assigns.eq_of_none {s t : State} (run : Assigns s t 0) : t = s := by
  cases run
  rfl

/-! #### What `k` assignments leave and move -/

section
variable {s t : State} {k : Nat} (run : Assigns s t k)
include run

/-- Assignments stay within the receive merge unit. -/
theorem Assigns.frame : t = { s with rmu := t.rmu } := by
  induction run with
  | done => rfl
  | more _ _ _ ih => exact ih

theorem Assigns.svcRxSize : t.svcRxSize = s.svcRxSize := by
  rw [run.frame]
  rfl

theorem Assigns.release : t.rmu.release = s.rmu.release := by
  induction run with
  | done => rfl
  | more _ _ _ ih => exact ih

theorem Assigns.available : t.rmu.available = s.rmu.available + BitVec.ofNat 16 k := by
  induction run with
  | done s => exact (word_add_zero _).symm
  | more _ _ _ ih => rw [ih, assignOne_available, word_add_succ]

theorem Assigns.occupancy (small : s.svcRxSize ≤ 256) : t.rxOccupancy = s.rxOccupancy + k := by
  induction run with
  | done => rfl
  | @more s _ b rest _ _ room _ ih =>
    rw [ih small, assignOne_occupancy s b rest (by omega)]
    omega

theorem Assigns.le_room (small : s.svcRxSize ≤ 256) (fits : s.rxOccupancy ≤ s.svcRxSize) :
    s.rxOccupancy + k ≤ s.svcRxSize := by
  induction run with
  | done => exact fits
  | @more s _ b rest _ _ room _ ih =>
    have one := assignOne_occupancy s b rest (by omega)
    have := ih small (one ▸ room)
    change _ ≤ s.svcRxSize at this
    omega

theorem Assigns.paths : t.rmu.arrivals.map (·.path) <:+ s.rmu.arrivals.map (·.path) := by
  induction run with
  | done => exact List.suffix_refl _
  | more head _ _ ih => exact ih.trans (head ▸ takeHead_paths)

section
variable (counted : ∀ b ∈ s.rmu.arrivals, 1 ≤ b.count)
include counted

theorem Assigns.still_counted : ∀ b ∈ t.rmu.arrivals, 1 ≤ b.count := by
  induction run with
  | done => exact counted
  | more head _ _ ih => exact ih (takeHead_counted (head ▸ counted))

theorem Assigns.waiting : k ≤ (waitingSlots s.rmu.arrivals).length ∧
    waitingSlots t.rmu.arrivals = (waitingSlots s.rmu.arrivals).drop k := by
  induction run with
  | done => exact ⟨Nat.zero_le _, rfl⟩
  | more head _ _ ih =>
    rw [head] at counted ⊢
    obtain ⟨enough, rest⟩ := ih (takeHead_counted counted)
    rw [waitingSlots_takeHead (counted _ List.mem_cons_self)]
    exact ⟨Nat.succ_le_succ enough, rest⟩

/-- Each path's assigned record advances by the slots of the path among those assigned. -/
theorem Assigns.rxRecs (p : Path) : t.rxRecs p = { s.rxRecs p with
    assigned := (s.rxRecs p).assigned + BitVec.ofNat 16 (((waitingSlots s.rmu.arrivals).take k).count p) } := by
  induction run with
  | done => simp
  | @more s _ b rest _ head _ _ ih =>
    rw [head] at counted ⊢
    rw [ih (takeHead_counted counted), assignOne_rxRecs, assignOne_arrivals,
      waitingSlots_takeHead (counted _ List.mem_cons_self), List.take_succ_cons,
      count_cons_word p b.path (List.take _ _), ← BitVec.add_assoc]

end

section
variable (size : s.rmu.entries.length = s.svcRxSize)
include size

/-- Only the entries from the available record on are filled. -/
theorem Assigns.rxEntry_other {i : Nat}
    (other : ∀ j, j < k → i ≠ slotOf (s.rmu.available + BitVec.ofNat 16 j) s.svcRxSize) :
    t.rxEntry i = s.rxEntry i := by
  induction run with
  | done => rfl
  | @more s _ b rest k head _ _ ih =>
    have first := other 0 (Nat.succ_pos k)
    rw [word_add_zero] at first
    have one := (assignOne_rxEntry s b rest i size).trans (if_neg first)
    refine (ih ((List.length_set).trans size) fun j hj => ?_).trans one
    have later := other (j + 1) (Nat.succ_lt_succ hj)
    rwa [word_add_succ] at later

/-- Each entry from the available record on takes the next waiting slot, at its path's assigned record. -/
theorem Assigns.rxEntry_filled (counted : ∀ b ∈ s.rmu.arrivals, 1 ≤ b.count) (divides : s.svcRxSize ∣ 2 ^ 16)
    (within : k ≤ s.svcRxSize) {j : Nat} {p : Path} (hj : j < k) (next : (waitingSlots s.rmu.arrivals)[j]? = some p) :
    t.rxEntry (slotOf (s.rmu.available + BitVec.ofNat 16 j) s.svcRxSize) = .filled p (slotOf
      ((s.rxRecs p).assigned + BitVec.ofNat 16 (((waitingSlots s.rmu.arrivals).take j).count p)) (s.rxSize p)) := by
  induction run generalizing j with
  | done => omega
  | @more s t b rest k head _ tail ih =>
    have resized : (assignOne s b rest).rmu.entries.length = (assignOne s b rest).svcRxSize := (List.length_set).trans size
    rw [head] at counted next ⊢
    rw [waitingSlots_takeHead (counted _ List.mem_cons_self)] at next ⊢
    cases j with
    | zero =>
      have path : b.path = p := Option.some.inj next
      have kept : t.rxEntry (slotOf s.rmu.available s.svcRxSize) =
          (assignOne s b rest).rxEntry (slotOf s.rmu.available s.svcRxSize) := by
        refine tail.rxEntry_other resized fun i hi => ?_
        have differ := slotOf_add_ne divides s.rmu.available i.succ_pos (Nat.lt_of_lt_of_le (Nat.succ_lt_succ hi) within)
        rw [word_add_zero, word_add_succ] at differ
        exact differ.symm
      rw [word_add_zero, kept, assignOne_rxEntry s b rest _ size, if_pos rfl, path]
      simp
    | succ j =>
      have later := ih resized (takeHead_counted counted) divides (Nat.le_of_succ_le within) (Nat.lt_of_succ_lt_succ hj) next
      rw [word_add_succ, List.take_succ_cons, count_cons_word, ← BitVec.add_assoc]
      rw [assignOne_rxRecs] at later
      exact later

end

end

/-! ### The assignment run (R82, R83) -/

section
variable {s : State} (fits : s.rxOccupancy ≤ s.svcRxSize) (small : s.svcRxSize ≤ 256)
  (counted : ∀ b ∈ s.rmu.arrivals, 1 ≤ b.count)
include fits small counted

/-- A run assigns until no slot waits or the ring is full. -/
theorem assignLoop_count : (assignLoop s.svcRxSize s).1 =
    min (waitingSlots s.rmu.arrivals).length (s.svcRxSize - s.rxOccupancy) := by
  have run := assignLoop_assigns s.svcRxSize s
  have stops := assignLoop_stops s.svcRxSize s
  obtain ⟨enough, rest⟩ := run.waiting counted
  have room := run.le_room small fits
  rw [run.svcRxSize, run.occupancy small] at stops
  rcases stops with spent | nothing | full
  · omega
  · have all : _ ≤ _ := List.drop_eq_nil_iff.mp (rest.symm.trans (congrArg waitingSlots nothing))
    omega
  · omega

theorem assignLoop_filled : (assignLoop s.svcRxSize s).2.rmu.arrivals = [] ∨
    (assignLoop s.svcRxSize s).2.rxOccupancy = s.svcRxSize := by
  have run := assignLoop_assigns s.svcRxSize s
  have count := assignLoop_count fits small counted
  rcases Nat.le_total (waitingSlots s.rmu.arrivals).length (s.svcRxSize - s.rxOccupancy) with all | full
  · refine .inl (waitingSlots_eq_nil (run.still_counted counted) ?_)
    rw [(run.waiting counted).2, count, Nat.min_eq_left all, List.drop_length]
  · rw [run.occupancy small, count]
    omega

end

/-! #### The header write of a run (R83) -/

/-- The short-write list after a header request does not depend on the receive merge unit. -/
theorem requestHeader_fsp_of_rmu (s : State) (r : Rmu) (w : Nat) (v : Word) :
    (requestHeader { s with rmu := r } w v).fsp = (requestHeader s w v).fsp := by
  unfold requestHeader
  simp only
  split <;> rfl

theorem assignRun_idle {s : State} (h : (assignLoop s.svcRxSize s).1 = 0) : assignRun s = s := by
  have run := assignLoop_assigns s.svcRxSize s
  rw [h] at run
  exact (if_pos h).trans run.eq_of_none

theorem assignRun_requests {s : State} (h : (assignLoop s.svcRxSize s).1 ≠ 0) : assignRun s =
    requestHeader (assignLoop s.svcRxSize s).2 2 (assignLoop s.svcRxSize s).2.rmu.available := if_neg h

theorem assignRun_rmu (s : State) : (assignRun s).rmu = (assignLoop s.svcRxSize s).2.rmu := by
  unfold assignRun
  simp only
  split
  · rfl
  · exact requestHeader_rmu _ _ _

theorem assignRun_rxRecs (s : State) (p : Path) : (assignRun s).rxRecs p = (assignLoop s.svcRxSize s).2.rxRecs p :=
  congrArg (fun r : Rmu => r.recs.get p) (assignRun_rmu s)

theorem assignRun_rxEntry (s : State) (i : Nat) : (assignRun s).rxEntry i = (assignLoop s.svcRxSize s).2.rxEntry i :=
  congrArg (fun r : Rmu => r.entries.getD i .empty) (assignRun_rmu s)

theorem assignRun_rxOccupancy (s : State) : (assignRun s).rxOccupancy = (assignLoop s.svcRxSize s).2.rxOccupancy :=
  congrArg (fun r : Rmu => advance r.available r.release) (assignRun_rmu s)

/-- A run changes the receive merge unit and the short-write list, and nothing else. -/
theorem assignRun_frame (s : State) : ∃ r l, assignRun s = { s with rmu := r, fsp.list := l } := by
  have loop := (assignLoop_assigns s.svcRxSize s).frame
  by_cases h : (assignLoop s.svcRxSize s).1 = 0
  · exact ⟨s.rmu, s.fsp.list, assignRun_idle h⟩
  · rw [assignRun_requests h, (requestHeader_spec _ _ _).1]
    generalize (requestHeader (assignLoop s.svcRxSize s).2 2 (assignLoop s.svcRxSize s).2.rmu.available).fsp.list = l
    exact ⟨_, l, congrArg (fun t : State => { t with fsp.list := l }) loop⟩

/-! ### What a run requests and what a release comes to (R83, R85, R86) -/

/-- A run that assigned something requests header word 2 with the available record; any other changes nothing. -/
theorem assignRun_header {s : State} (fits : s.rxOccupancy ≤ s.svcRxSize) (small : s.svcRxSize ≤ 256) :
    ((assignRun s).rmu.available = s.rmu.available → assignRun s = s) ∧
    ((assignRun s).rmu.available ≠ s.rmu.available →
      (assignRun s).fsp = (requestHeader s 2 (assignRun s).rmu.available).fsp) := by
  have run := assignLoop_assigns s.svcRxSize s
  have room := run.le_room small fits
  have unmoved : (assignRun s).rmu.available = s.rmu.available ↔ (assignLoop s.svcRxSize s).1 = 0 := by
    rw [assignRun_rmu, run.available]
    exact word_add_eq_self (by omega)
  refine ⟨fun same => assignRun_idle (unmoved.mp same), fun moved => ?_⟩
  rw [assignRun_rmu, assignRun_requests (mt unmoved.mpr moved)]
  have frame := run.frame
  generalize (assignLoop s.svcRxSize s).2 = t at frame ⊢
  generalize t.rmu = r at frame ⊢
  subst frame
  exact requestHeader_fsp_of_rmu s r 2 _

/-- A release empties the entries it reaches, raises the overrun, writes the moved consumer words back and assigns. -/
theorem takeRelease_emptied {s : State} (v : Word) (fits : s.rxOccupancy ≤ s.svcRxSize)
    (code : s.sdc.settings.geometry.svcRx.size ≤ 3) :
    let m := min (advance v s.rmu.release) s.rxOccupancy
    let judged := if s.rxOccupancy < advance v s.rmu.release then
        (s.emptied m).faulted .notice .releaseOverrun none (some (slotOf s.rmu.available s.svcRxSize))
      else s.emptied m
    let fibre := if s.releasedOf m .fibre = 0 then judged else requestHeader judged 7 (s.releasedRecs m .fibre).consumer
    takeRelease s v = assignRun (if s.releasedOf m .radio = 0 then fibre
      else requestHeader fibre 11 (s.releasedRecs m .radio).consumer) := by
  intro m judged fibre
  have ring : m ≤ s.svcRxSize := Nat.le_trans (Nat.min_le_right _ _) fits
  have small : m ≤ 256 := Nat.le_trans ring (serviceSlots_le code)
  have judged_eq : (if s.rxOccupancy < advance v s.rmu.release then
      takeFault (releaseLoop m s) .releaseOverrun none (some (slotOf s.rmu.available s.svcRxSize))
      else releaseLoop m s) = judged := by
    rw [takeFault_faulted, releaseLoop_emptied m s (serviceSlots_dvd code) ring]
    rfl
  have judged_recs (p : Path) : judged.rxRecs p = s.releasedRecs m p := by
    refine Eq.trans ?_ (rxRecs_emptied s m p)
    unfold judged
    split <;> rfl
  have fibre_eq : writeBack s judged .fibre = fibre := writeBack_released .fibre (judged_recs .fibre) small
  have fibre_recs : fibre.rxRecs .radio = s.releasedRecs m .radio :=
    (congrArg (fun r : Rmu => r.recs.get .radio) (fibre_eq ▸ writeBack_rmu s judged .fibre)).trans (judged_recs .radio)
  refine congrArg assignRun ?_
  rw [judged_eq, fibre_eq]
  exact writeBack_released .radio fibre_recs small

/-- Settles O16: a release is `State.emptied` with what it raises and writes back (`takeRelease_emptied`), and a run is
`Assigns`, whose count `assignLoop_count` gives. -/
theorem assignmentRunFillsRing : Obligations.AssignmentRunFillsRing := by
  refine ⟨requestHeader_spec, fun s v fits code => takeRelease_emptied v fits code, ?_, ?_⟩
  · intro s fits code size counted t waiting k slot
    have small : s.svcRxSize ≤ 256 := serviceSlots_le code
    have count : (assignLoop s.svcRxSize s).1 = k := assignLoop_count fits small counted
    have run := assignLoop_assigns s.svcRxSize s
    rw [count] at run
    refine ⟨?_, fun j p hj next => ?_, fun i other => ?_, fun p => ?_, ?_, ?_, ?_⟩
    · rw [assignRun_rmu, run.available]
    · rw [assignRun_rxEntry]
      exact run.rxEntry_filled size counted (serviceSlots_dvd code) (by omega) hj next
    · rw [assignRun_rxEntry]
      exact run.rxEntry_other size other
    · rw [assignRun_rxRecs, run.rxRecs counted]
    · rw [assignRun_rmu, (run.waiting counted).2]
    · rw [assignRun_rmu]
      exact run.still_counted counted
    · rw [assignRun_rmu]
      exact run.paths
  · intro s fits small counted t
    have run := assignLoop_assigns s.svcRxSize s
    obtain ⟨r, l, frame⟩ := assignRun_frame s
    have size : t.svcRxSize = s.svcRxSize := (congrArg State.svcRxSize frame).trans rfl
    obtain ⟨idle, header⟩ := assignRun_header fits small
    refine ⟨?_, ?_, ?_, idle, header, fun p => ?_, ?_⟩
    · rw [size, assignRun_rmu, assignRun_rxOccupancy]
      exact assignLoop_filled fits small counted
    · rw [size, assignRun_rxOccupancy, run.occupancy small]
      exact run.le_room small fits
    · rw [assignRun_rmu, run.release]
    · rw [assignRun_rxRecs, run.rxRecs counted]
      exact ⟨rfl, rfl⟩
    · unfold t
      rw [frame]
      exact ⟨rfl, rfl, rfl, rfl, rfl, rfl⟩

end Sys2Proof.Machine

/-! SUPPORT. Forced switches, the failback commands and the failback wait: which state each leaves, by the tables of R122 to
R126, and what the expiries that test the wait do (R118, R123). -/

namespace Sys2Proof.Machine

/-! ### Paths that are UP -/

theorem isUp_iff (s : State) (p : Path) : s.isUp p = true ↔ (s.pathRec p).health = .up := decide_eq_true_iff

theorem isUp_false_iff (s : State) (p : Path) : s.isUp p = false ↔ (s.pathRec p).health ≠ .up := decide_eq_false_iff_not

/-! ### A supervisor's command -/

section
variable {s : State} {item : BitVec 4} {x : BitVec 8} (h : s.judges .write .supervisor (settingAddr 6 item x)) {v : Word}
  (known : item.toNat ≤ 10) (range : commandInRange item.toNat v.toNat = true) {owner : State → Option RefusalCause}
  (take : State → State)
include h known range

/-- A command its owner refuses (R181). -/
theorem commandCycle_refused {c : RefusalCause} (o : owner { s with nsi.near := none } = some c) :
    writeCycle s .supervisor (settingAddr 6 item x) v owner take = s.refusedWith c .supervisor (settingAddr 6 item x) .write :=
  writeCycle_owner s _ _ v owner take c h (judgeWrite_command _ item x v known range) o

/-- A command its owner does not refuse (R181). -/
theorem commandCycle_taken (o : owner { s with nsi.near := none } = none) :
    writeCycle s .supervisor (settingAddr 6 item x) v owner take = take { s with nsi.near := none } :=
  writeCycle_taken s _ _ v owner take h (judgeWrite_command _ item x v known range) o

end

/-! ### The start of a migration -/

/-- The switch controller after a migration toward a path has started; a claim may end the step under way (R127, R131). -/
theorem startMigration_swc (s : State) (p : Path) (kind : MigrationKind) :
    (startMigration s (some p) kind).swc =
      { s.swc with
        state := .migrating, target := some (some p), kind := some kind, service := some p
        step := (startMigration s (some p) kind).swc.step } := by
  let begun : State := { s with swc.state := .migrating, swc.target := some (some p), swc.kind := some kind }
  obtain ⟨-, -, service⟩ := setService_frame begun (some p)
  obtain ⟨-, -, -, -, -, claimed⟩ := claimEngine_frame (setService begun (some p))
  have started : startMigration s (some p) kind = claimEngine (setService begun (some p)) := rfl
  rw [service] at claimed
  rw [started]
  exact claimed

/-! ### FORCE_PATH (R126) -/

section
variable {v : Word} {p : Path} (named : forcedPath v = some p) (s : State)
include named

theorem forceRefusal_named : forceRefusal v s =
    if s.pcf.part ≠ .active then some .state
    else if s.swc.state = .migrating then some .busy
    else if s.swc.emergency.flag = true then some .guarded
    else if (s.pathRec p).health ≠ .up then some .state
    else none := by
  simp only [forceRefusal, named, isUp_false_iff]

theorem takeForce_named : takeForce v s =
    if s.swc.service = some p then
      (if s.swc.state = .waiting then endWait { s with swc.force := some p } else { s with swc.force := some p })
    else settleWork (startMigration (stopWait { s with swc.force := some p }) (some p) .forced) := by
  simp only [takeForce, named]

end

/-- The two values that name a path. -/
theorem forcedPath_eq_some {v : Word} {p : Path} (h : v = match p with | .fibre => 1 | .radio => 2) :
    forcedPath v = some p ∧ v.toNat ≤ 2 := by
  subst h
  cases p <;> decide

/-- Settles O29: `forceRefusal_named` gives the first condition that refuses a named path, `takeForce_named` what a taken one
does. -/
theorem forcePathTable : Obligations.ForcePathTable := by
  intro s x v h refused
  refine ⟨?_, fun p value => ?_⟩
  · rintro rfl
    exact congrArg _ (commandCycle_taken h (by decide) rfl (takeForce 0) rfl)
  obtain ⟨named, range⟩ := forcedPath_eq_some value
  have rejects {c : RefusalCause} (o : forceRefusal v s = some c) : exec (.forcePath .supervisor x v) s = .next (refused c) :=
    congrArg _ (commandCycle_refused h (by decide) (decide_eq_true range) (takeForce v) o)
  have table := forceRefusal_named named s
  refine ⟨fun inactive => rejects ?_, fun active => ⟨fun busy => rejects ?_, fun settled guarded => rejects ?_,
    fun settled clear => ?_⟩⟩
  · rw [table, if_pos inactive]
  · rw [table, if_neg (not_not_intro active), if_pos busy]
  · rw [table, if_neg (not_not_intro active), if_neg settled, if_pos guarded]
  have judged : forceRefusal v s = if (s.pathRec p).health ≠ .up then some .state else none := by
    rw [table, if_neg (not_not_intro active), if_neg settled, if_neg (by simp [clear])]
  have takes {t : State} (up : (s.pathRec p).health = .up) (taken : takeForce v { s with nsi.near := none } = t) :
      exec (.forcePath .supervisor x v) s = .next t :=
    congrArg _ ((commandCycle_taken h (by decide) (decide_eq_true range) (takeForce v)
      (judged.trans (if_neg (not_not_intro up)))).trans taken)
  have taken := takeForce_named named { s with nsi.near := none }
  refine ⟨fun unfit => rejects (judged.trans (if_pos unfit)), fun up serves steady => takes up ?_,
    fun up serves waiting => takes up ?_, fun up other => takes up ?_⟩
  · rw [taken, if_pos serves, if_neg (by simp [steady])]
  · rw [taken, if_pos serves, if_pos waiting]
    rfl
  · rw [taken, if_neg other]
    rfl

/-! ### FAILBACK_NOW (R125) -/

theorem failbackNowRefusal_eq (s : State) : failbackNowRefusal s =
    if s.pcf.part ≠ .active then some .state
    else if s.swc.state = .migrating then some .busy
    else if s.swc.emergency.flag = true then some .guarded
    else if s.swc.service ≠ some .radio ∨ (s.pathRec .fibre).health ≠ .up then some .state
    else none := by
  simp only [failbackNowRefusal, isUp_false_iff]

/-- Settles O30: the refusals are the lines of `failbackNowRefusal_eq`, and `startMigration_swc` gives the switch controller of
the failback. -/
theorem failbackNowTable : Obligations.FailbackNowTable := by
  intro s x v h refused taken
  have swc : taken.swc = { s.swc with
      force := none, wait := none, expired := false, state := .migrating, target := some (some .fibre)
      kind := some .failback, service := some .fibre, step := taken.swc.step } := startMigration_swc _ _ _
  refine ⟨?_, congrArg Swc.force swc, (congrArg Swc.mode swc).trans rfl, congrArg Swc.wait swc, congrArg Swc.expired swc,
    congrArg Swc.state swc, congrArg Swc.kind swc, congrArg Swc.target swc, congrArg Swc.service swc⟩
  have rejects {c : RefusalCause} (o : failbackNowRefusal s = some c) :
      exec (.failbackNow .supervisor x v) s = .next (refused c) :=
    congrArg _ (commandCycle_refused h (by decide) rfl takeFailbackNow o)
  have takes (o : failbackNowRefusal s = none) : exec (.failbackNow .supervisor x v) s = .next (settleWork taken) :=
    congrArg _ (commandCycle_taken h (by decide) rfl takeFailbackNow o)
  have table := failbackNowRefusal_eq s
  split
  · rename_i inactive
    exact rejects (table.trans (if_pos inactive))
  rename_i active
  rw [if_neg active] at table
  split
  · rename_i busy
    exact rejects (table.trans (if_pos busy))
  rename_i settled
  rw [if_neg settled] at table
  split
  · rename_i guarded
    exact rejects (table.trans (if_pos guarded))
  rename_i clear
  rw [if_neg clear] at table
  split
  · rename_i unfit
    exact rejects (table.trans (if_pos unfit))
  · rename_i fit
    exact takes (table.trans (if_neg fit))

/-! ### The failback wait and the automatic failback test (R122, R123) -/

/-- The wait goes on while an activity guards it (R123). -/
theorem testWait_guarded {s : State}
    (h : ¬ (s.swc.emergency.flag = false ∧ (s.swc.voice.flag = false ∨ s.swc.expired = true))) : testWait s = s :=
  if_neg fun proceeds => h proceeds.2

/-- The wait proceeds to a failback when no activity guards it (R123). -/
theorem testWait_proceeds {s : State} (waiting : s.swc.state = .waiting) (emergency : s.swc.emergency.flag = false)
    (voice : s.swc.voice.flag = false ∨ s.swc.expired = true) :
    testWait s = startMigration (stopWait s) (some .fibre) .failback :=
  if_pos ⟨waiting, emergency, voice⟩

/-- The automatic failback test acts: in ACTIVE, the radio serves in STEADY and the fibre is UP (R122). -/
def State.failbackApplies (s : State) : Prop :=
  s.pcf.part = .active ∧ s.swc.state = .steady ∧ s.swc.service = some .radio ∧ (s.pathRec .fibre).health = .up

/-- The failback wait begun, with its alert (R123). -/
def State.failbackWaiting (s : State) : State :=
  ({ s with swc.state := .waiting, swc.wait := some 0, swc.expired := false } : State).alerted 0x40

theorem failbackTest_idle {s : State} (h : ¬ s.failbackApplies) : failbackTest s = s :=
  if_neg fun ⟨active, steady, serves, up⟩ => h ⟨active, steady, serves, (isUp_iff s .fibre).mp up⟩

section
variable {s : State} (h : s.failbackApplies)
include h

theorem failbackTest_applies : failbackTest s =
    if s.swc.mode = .manual then s.alerted 0x40 else if s.swc.force = none then testWait s.failbackWaiting else s := by
  obtain ⟨active, steady, serves, up⟩ := h
  refine (if_pos ⟨active, steady, serves, (isUp_iff s .fibre).mpr up⟩).trans ?_
  cases s.swc.mode <;> rfl

theorem failbackTest_manual (mode : s.swc.mode = .manual) : failbackTest s = s.alerted 0x40 := by
  rw [failbackTest_applies h, if_pos mode]

theorem failbackTest_forced (mode : s.swc.mode = .auto) (force : s.swc.force ≠ none) : failbackTest s = s := by
  rw [failbackTest_applies h, if_neg (by simp [mode]), if_neg force]

theorem failbackTest_auto (mode : s.swc.mode = .auto) (force : s.swc.force = none) :
    failbackTest s = testWait s.failbackWaiting := by
  rw [failbackTest_applies h, if_neg (by simp [mode]), if_pos force]

end

/-! ### FAILBACK_MODE (R124) -/

theorem exec_failbackMode {s : State} {x : BitVec 8} {v : Word} (h : s.judges .write .supervisor (settingAddr 6 5 x))
    (range : v.toNat ≤ 1) :
    exec (.failbackMode .supervisor x v) s = .next (takeFailbackMode v { s with nsi.near := none }) :=
  congrArg _ (commandCycle_taken h (by decide) (decide_eq_true range) (takeFailbackMode v) rfl)

/-- Settles O31: the command by its two values, and the test by the mode, the force and the activity flags
(`failbackTest_applies`). -/
theorem failbackModeAndTest : Obligations.FailbackModeAndTest := by
  constructor
  · refine fun s x v h => ⟨?_, ?_, ?_⟩
    · rintro rfl
      exact exec_failbackMode h (by decide)
    · rintro rfl steady
      exact (exec_failbackMode h (by decide)).trans (congrArg _ (if_neg steady))
    · rintro rfl wait
      exact (exec_failbackMode h (by decide)).trans (congrArg _ (if_pos wait))
  · intro s applies waiting
    refine ⟨failbackTest_idle, failbackTest_manual, failbackTest_forced, fun acts mode force => ?_⟩
    rw [failbackTest_auto acts mode force]
    refine ⟨fun guards => testWait_guarded ?_, fun emergency voice => testWait_proceeds rfl emergency (.inl voice)⟩
    rintro ⟨emergency, voice | expired⟩
    · exact guards.elim (fun e => Bool.noConfusion (e.symm.trans emergency)) fun e => Bool.noConfusion (e.symm.trans voice)
    · cases expired

/-! ### The expiries that test the wait (R118, R123) -/

/-- An expiry whose timer runs (log 3). -/
theorem expiry_running {s : State} {runs : Bool} (act : State → State) (rstn : s.rstn = true) (h : runs = true) :
    expiry s runs act = settleWork (act s) :=
  if_pos (by rw [rstn, h]; rfl)

/-- An expiry whose timer is stopped is no event (log 3). -/
theorem expiry_stopped {s : State} {runs : Bool} (act : State → State) (h : runs = false) : expiry s runs act = s :=
  if_neg (by simp [h])

theorem exec_quietTimerExpiry {s : State} {a : Activity} (rstn : s.rstn = true) :
    ((s.activity a).timer ≠ none → exec (.quietTimerExpiry a) s = .next (settleWork (quietExpires s a))) ∧
    ((s.activity a).timer = none → exec (.quietTimerExpiry a) s = .next s) :=
  ⟨fun runs => congrArg _ (expiry_running _ rstn (Option.isSome_iff_ne_none.mpr runs)),
    fun stopped => congrArg _ (expiry_stopped _ (Option.isSome_eq_false_iff.mpr (Option.isNone_iff_eq_none.mpr stopped)))⟩

theorem waitRuns_iff (s : State) : s.waitRuns = true ↔ s.swc.wait ≠ none ∧ s.sdc.settings.timing.failbackWait ≠ 0 := by
  simp [State.waitRuns, Option.isSome_iff_ne_none]

/-- Settles O49: each expiry is `quietExpires` or `waitExpires` where its timer runs, and both end in `testWait`. -/
theorem quietAndWaitExpiries : Obligations.QuietAndWaitExpiries := by
  intro s rstn waited
  obtain ⟨voice, voiceStopped⟩ := exec_quietTimerExpiry (a := .voice) rstn
  obtain ⟨emergency, emergencyStopped⟩ := exec_quietTimerExpiry (a := .emergency) rstn
  refine ⟨voice, emergency, fun runs on => ?_, voiceStopped, emergencyStopped, fun stopped => ?_⟩
  · exact congrArg _ (expiry_running waitExpires rstn ((waitRuns_iff s).mpr ⟨runs, on⟩))
  · refine congrArg _ (expiry_stopped waitExpires (Bool.eq_false_iff.mpr fun running => ?_))
    obtain ⟨runs, on⟩ := (waitRuns_iff s).mp running
    exact stopped.elim runs on

end Sys2Proof.Machine

/-! SUPPORT. The state as RSTN rises satisfies the invariants that every step keeps (R187, R115, R151, R63), whatever the line
levels and the queue. -/

namespace Sys2Proof.Machine

section
variable (l : Lines) (queue : List Instr)

/-- Every count and list starts empty, and the pool at the default ceiling. -/
theorem released_bounded : (State.released l queue).Bounded where
  migration := Nat.zero_le _
  config _ := rfl
  pool := Nat.le_refl _
  deferral := Nat.zero_le _
  arrivals := Nat.zero_le _
  flaps := Nat.zero_le _
  retry := Nat.zero_le _
  trial p := by cases p <;> exact Nat.zero_le _
  silence p := by cases p <;> exact Nat.zero_le _
  downs p := by cases p <;> exact Nat.zero_le _
  trials p := by cases p <;> exact Nat.zero_le _
  streak := Nat.zero_le _
  hold := Nat.zero_le _
  failovers := Nat.zero_le _
  failbacks := Nat.zero_le _
  notices := Nat.zero_le _
  paths := Nat.zero_le _
  transfers := Nat.zero_le _
  integrities := Nat.zero_le _
  sub := Nat.succ_pos _

/-- No path serves, and the radio is DOWN in POWERED with its attach timer running. -/
theorem released_serviceSound : (State.released l queue).ServiceSound where
  up _ serves := nomatch serves
  active _ := rfl
  waiting state := nomatch state
  powered _ := rfl
  attaching _ := ⟨rfl, .inl rfl⟩
  cycling off := absurd rfl off

theorem released_emergencySound : (State.released l queue).EmergencySound := (lowReset_sound l queue).congr rfl rfl

/-- The part is in CONFIG, where the zero-time work does nothing. -/
theorem released_resting : (State.released l queue).Resting where
  rest := workStep_inactive _ nofun
  short := Nat.zero_le _
  config _ := rfl

end

/-- Settles O54: `State.reset` is the part as RSTN rises (log 5). -/
theorem resetIsSound : Obligations.ResetIsSound :=
  ⟨released_bounded _ _, released_serviceSound _ _, released_emergencySound _ _, released_resting _ _⟩

end Sys2Proof.Machine

/-! SUPPORT. The usage meter under every command: which operations leave it alone, and that no byte meter falls but by
PERIOD_RESTART, a preset or the reset line (R141, R142, R145, R146). -/

namespace Sys2Proof.Machine

/-! ### What leaves the usage meter alone -/

theorem SwitchFrame.umt {s t : State} (h : SwitchFrame s t) : t.umt = s.umt := (congrArg State.umt h.frame).trans rfl

theorem evalStandby_umt (s : State) : (evalStandby s).umt = s.umt :=
  (congrArg State.umt (evalStandby_frame s).1).trans rfl

theorem setService_umt (s : State) (p : Option Path) : (setService s p).umt = s.umt :=
  (congrArg State.umt (setService_frame s p).1).trans rfl

theorem prompt_umt (s : State) : (prompt s).umt = s.umt := (prompt_frame s).umt

theorem settleWork_umt (s : State) : (settleWork s).umt = s.umt :=
  (congrArg State.umt (syncTimers_inLine _)).trans (runWork_frame _ s).umt

/-! #### The switch controller and the path monitor -/

theorem startMigration_umt (s : State) (target : Option Path) (kind : MigrationKind) :
    (startMigration s target kind).umt = s.umt := by
  unfold startMigration
  refine (claimEngine_frame _).1.umt.trans ?_
  split <;> exact setService_umt _ target

theorem pathLeftUp_umt (s : State) (p : Path) : (pathLeftUp s p).umt = s.umt := by
  unfold pathLeftUp
  split
  · split
    · split <;> exact startMigration_umt _ _ _
    · split <;> rfl
  · rfl

theorem pathBecameUp_umt (s : State) (p : Path) : (pathBecameUp s p).umt = s.umt := by
  have arrived := (arrivalTrigger_frame s).umt
  cases p with
  | fibre => exact (failbackTest_frame _).umt.trans arrived
  | radio => exact arrived

theorem flapAppend_umt (s : State) : (flapAppend s).umt = s.umt := by
  have limited : ∀ (full : Prop) [Decidable full] (t : State), t.umt = s.umt →
      (if full then takeFault { t with swc.mode := .manual } .flapLimit (some .fibre) none else t).umt = s.umt := by
    intro full _ t h
    split <;> exact h
  exact limited _ _ rfl

theorem downEvent_umt (s : State) (p : Path) (cause : DownCause) : (downEvent s p cause).umt = s.umt := by
  have reported : ∀ (up : Bool) (t : State), t.umt = s.umt → (if up then pathLeftUp t p else t).umt = s.umt := by
    intro up t h
    split
    · exact (pathLeftUp_umt t p).trans h
    · exact h
  unfold downEvent
  apply reported
  cases p with
  | fibre => exact (evalStandby_umt _).trans (flapAppend_umt _)
  | radio => simp only; split <;> rfl

theorem applyCause_umt (s : State) (p : Path) (cause : DownCause) : (applyCause s p cause).umt = s.umt := by
  unfold applyCause causeWhileDown
  split
  · exact downEvent_umt s p cause
  · exact downEvent_umt s p cause
  · simp only; split <;> rfl
  · rfl
  · rfl

theorem terminalIndex_umt (s : State) (p : Path) : (terminalIndex s p).umt = s.umt := applyCause_umt _ p _

theorem enterTrial_umt (s : State) (p : Path) : (enterTrial s p).umt = s.umt := by
  unfold enterTrial
  simp only
  split <;> rfl

theorem becomeUp_umt (s : State) (p : Path) : (becomeUp s p).umt = s.umt := by
  cases p with
  | fibre => exact (pathBecameUp_umt _ _).trans (evalStandby_umt _)
  | radio => exact pathBecameUp_umt _ _

theorem judgeSilence_umt (s : State) (p : Path) : (judgeSilence s p).umt = s.umt := by
  unfold judgeSilence
  simp only
  split
  · split
    · rfl
    · split
      · exact downEvent_umt _ _ _
      · rfl
  · rfl

theorem judgeTrial_umt (s : State) (p : Path) : (judgeTrial s p).umt = s.umt := by
  have tried : ∀ n : Nat, (let s1 := setRec s p { s.pathRec p with trial := n }
      if s.trialLength p ≤ n then becomeUp s1 p else s1).umt = s.umt := by
    intro n
    simp only
    split
    · exact becomeUp_umt _ p
    · rfl
  unfold judgeTrial
  simp only
  split
  · exact tried _
  · rfl
  · rfl

theorem judge_umt (s : State) (p : Path) : (judge s p).umt = s.umt := by
  unfold judge
  split
  · exact judgeSilence_umt s p
  · exact judgeTrial_umt s p
  · split
    · exact enterTrial_umt s p
    · rfl
  · rfl
  · rfl

theorem heartbeatEnd_umt (s : State) : (heartbeatEnd s).umt = s.umt := by
  have restarted : ∀ u : State,
      ({ clearMark (clearMark u .fibre) .radio with
        pmn.beat := 0
        pmn.beatLen := (clearMark (clearMark u .fibre) .radio).sdc.settings.timing.heartbeat } : State).umt = u.umt :=
    fun _ => rfl
  exact (restarted _).trans ((judge_umt _ .radio).trans ((settleWork_umt _).trans (judge_umt s .fibre)))

theorem badConfirm_umt (s : State) (p : Path) : (badConfirm s p).umt = s.umt := applyCause_umt _ p _

theorem lineFalls_umt (s : State) (p : Path) : (lineFalls s p).umt = s.umt := by
  unfold lineFalls
  split
  · simp only
    split
    · exact badConfirm_umt _ p
    · rfl
  · rfl
  · rfl

theorem lineRises_umt (s : State) (p : Path) : (lineRises s p).umt = s.umt := by
  unfold lineRises
  split
  · rfl
  · rfl
  · exact enterTrial_umt _ p

theorem moveLine_umt (s : State) (p : Path) (level : Bool) : (moveLine s p level).umt = s.umt := by
  unfold moveLine
  split
  · rfl
  · simp only
    split
    · refine (settleWork_umt _).trans ?_
      split
      · exact lineRises_umt _ p
      · exact lineFalls_umt _ p
    · rfl

theorem stallExpires_umt (s : State) (p : Path) : (stallExpires s p).umt = s.umt := by
  unfold stallExpires
  split
  · exact downEvent_umt s p _
  · exact downEvent_umt s p _
  all_goals rfl

theorem powerCycle_umt (s : State) : (powerCycle s).umt = s.umt := by
  have off : ∀ t : State, t.umt = s.umt → ({ t with pmn.power.off := some 0 } : State).umt = s.umt := fun _ h => h
  unfold powerCycle
  apply off
  split
  · exact downEvent_umt _ _ _
  · rfl

theorem attachExpires_umt (s : State) : (attachExpires s).umt = s.umt := by
  unfold attachExpires
  simp only
  split
  · rfl
  · exact powerCycle_umt _

theorem quietExpires_umt (s : State) (a : Activity) : (quietExpires s a).umt = s.umt := by
  cases a <;> exact (testWait_frame _).umt

/-! #### The transmit slot map -/

theorem postLoop_umt (n : Nat) (s : State) : (postLoop n s).2.umt = s.umt := by
  induction n generalizing s with
  | zero => rfl
  | succ n ih =>
    unfold postLoop
    simp only
    split
    · exact ih _
    · rfl

theorem takePost_umt (s : State) (v : Word) : (takePost s v).umt = s.umt := by
  unfold takePost
  simp only
  split <;> exact postLoop_umt _ s

theorem reclaimLoop_umt (n : Nat) (s : State) : (reclaimLoop n s).2.umt = s.umt := by
  induction n generalizing s with
  | zero => rfl
  | succ n ih =>
    unfold reclaimLoop
    simp only
    split
    · exact ih _
    · rfl

theorem takeReclaim_umt (s : State) (v : Word) : (takeReclaim s v).umt = s.umt := by
  unfold takeReclaim
  simp only
  split <;> exact reclaimLoop_umt _ s

theorem takeFetch_umt (s : State) (p : Path) (ps : Nat) : (takeFetch s p ps).umt = s.umt := by
  unfold takeFetch
  simp only
  split
  · split <;> rfl
  · rfl

theorem cancelIf_umt (s : State) (e : TxEntry) (i : Nat) : (cancelIf s e i).umt = s.umt := by
  unfold cancelIf
  split <;> rfl

/-! #### The receive merge unit -/

theorem requestHeader_umt (s : State) (w : Nat) (v : Word) : (requestHeader s w v).umt = s.umt :=
  (congrArg State.umt (requestHeader_spec s w v).1).trans rfl

theorem assignRun_umt (s : State) : (assignRun s).umt = s.umt := by
  obtain ⟨r, l, run⟩ := assignRun_frame s
  exact (congrArg State.umt run).trans rfl

theorem takeRxProducer_umt (s : State) (p : Path) (v : Word) : (takeRxProducer s p v).umt = s.umt := by
  unfold takeRxProducer
  simp only
  split
  · split
    · rfl
    · exact assignRun_umt _
  · exact terminalIndex_umt s p

theorem releaseLoop_umt (n : Nat) (s : State) : (releaseLoop n s).umt = s.umt := by
  induction n generalizing s with
  | zero => rfl
  | succ n ih =>
    unfold releaseLoop
    simp only
    split <;> exact ih _

theorem writeBack_umt (old s : State) (p : Path) : (writeBack old s p).umt = s.umt := by
  unfold writeBack
  split
  · rfl
  · exact requestHeader_umt _ _ _

theorem takeRelease_umt (s : State) (v : Word) : (takeRelease s v).umt = s.umt := by
  unfold takeRelease
  refine (assignRun_umt _).trans ((writeBack_umt _ _ _).trans ((writeBack_umt _ _ _).trans ?_))
  split <;> exact releaseLoop_umt _ s

/-! #### The engine's decisions and the part's far cycles -/

theorem deferEntry_umt (s : State) (i : Nat) : (deferEntry s i).umt = s.umt := by
  unfold deferEntry
  simp only
  split <;> rfl

theorem publish_umt (s : State) (o : Operation) : (publish s o).umt = s.umt := by
  have retriggered : ∀ (t : State) (cls : Cls), (retrigger t cls).umt = t.umt := by
    intro t cls
    unfold retrigger
    split
    · rfl
    · split
      · rfl
      · split <;> rfl
  exact (endOp_frame _ none).1.umt.trans ((retriggered _ _).trans (requestHeader_umt _ _ _))

theorem withdrawn_umt (s : State) (i : Nat) : (withdrawn s i).umt = s.umt := by
  have unmapped : ∀ t : State, t.umt = s.umt →
      (match t.ple.claim, t.swc.target with
        | .held, some (some p) => beginOp t i .reDecision p
        | _, _ => requeue { t with swc.step := none } i).umt = s.umt := by
    intro t h
    split <;> exact h
  unfold withdrawn
  apply unmapped
  split <;> rfl

theorem serviceWriteDone_umt (s : State) (a : Access) : (serviceWriteDone s a).umt = s.umt := by
  unfold serviceWriteDone
  split <;> rfl

theorem startReadDone_umt (v : Word) (s : State) (a : Access) : (startReadDone v s a).umt = s.umt := by
  show (startTake s a.hdr v).umt = s.umt
  unfold startTake
  split
  case h_2 => split <;> rfl
  all_goals rfl

theorem enterHalted_umt (s : State) : (enterHalted s).umt = s.umt :=
  (congrArg State.umt (syncTimers_inLine _)).trans (setService_umt _ none)

theorem partTimeout_umt (s : State) (a : Access) : (partTimeout s a).umt = s.umt := by
  have integrity : ∀ (c : FaultCause), (takeIntegrity s c a.path a.slot).umt = s.umt := by
    intro c
    unfold takeIntegrity
    simp only
    split
    · exact enterHalted_umt _
    · exact enterHalted_umt _
    · rfl
    · rfl
  unfold partTimeout
  split
  · exact integrity _
  · split
    · exact integrity _
    · simp only
      split <;> rfl

/-! #### The near side -/

theorem finishWord_umt (s : State) : (finishWord s).umt = s.umt := by
  unfold finishWord
  split
  · rfl
  · split <;> rfl

theorem closeRun_umt (s : State) : (closeRun s).umt = s.umt := by
  unfold closeRun
  split <;> rfl

theorem waitWord_umt (s : State) (c : NearCycle) (v : Word) : (waitWord s c v).umt = s.umt := by
  unfold waitWord
  split <;> rfl

/-- The near data lines of a read word. -/
theorem dataOut_umt (s : State) (d : Dir) (v : Word) :
    (if d = .read then { s with nsi.dataOut := v } else s).umt = s.umt := by
  split <;> rfl

theorem transferWord_umt (s : State) (d : Dir) (fa : Addr) (v : Word) : (transferWord s d fa v).umt = s.umt :=
  (finishWord_umt _).trans (dataOut_umt s d v)

theorem beginCycle_umt (s : State) (c : NearCycle) : (beginCycle s c).umt = s.umt := by
  unfold beginCycle
  split <;> split <;> rfl

theorem endCycle_umt (s : State) : (endCycle s).umt = s.umt := by
  unfold endCycle
  split
  · simp only
    split <;> rfl
  · rfl

theorem holdLimit_umt (s : State) : (holdLimit s).umt = s.umt := by
  unfold holdLimit
  split
  · rfl
  · rfl
  · rename_i w _
    exact (finishWord_umt _).trans (dataOut_umt _ w.dir _)
  · rfl
  · exact partTimeout_umt _ _

theorem grantWork_umt (s : State) : (grantWork s).umt = s.umt := by
  unfold grantWork
  split
  · split <;> rfl
  · split
    · split <;> rfl
    · rfl

/-! #### Setting cycles and ticks -/

theorem refuse_umt (s : State) (c : RefusalCause) (tag : Tag) (addr : Addr) (dir : Dir) :
    (refuse s c tag addr dir).umt = s.umt := by
  unfold refuse
  simp only
  split <;> rfl

theorem burstCycle_umt (s : State) (tag : Tag) (addr : Addr) (dir : Dir) : (burstCycle s tag addr dir).umt = s.umt := by
  unfold burstCycle
  split
  · simp only
    split
    · split <;> rfl
    · exact refuse_umt _ _ _ _ _
  · rfl

theorem deferralTick_umt (s : State) : (deferralTick s).umt = s.umt := by
  have expired : ∀ (l : List DeferralRec) (t : State), (l.foldl expireRecord t).umt = t.umt := by
    intro l
    induction l with
    | nil => exact fun _ => rfl
    | cons r rest ih => exact fun t => ih _
  unfold deferralTick
  simp only
  split
  · exact expired _ _
  · rfl

theorem resizeTables_umt (s : State) (i : Nat) : (resizeTables s i).umt = s.umt := by
  unfold resizeTables
  split <;> rfl

theorem takeStandby_umt (v : Word) (s : State) : (takeStandby v s).umt = s.umt := by
  unfold takeStandby
  simp only
  split
  · rfl
  · split
    · refine (settleWork_umt _).trans ?_
      split <;> exact evalStandby_umt _
    · exact (settleWork_umt _).trans (evalStandby_umt _)

theorem takeForce_umt (v : Word) (s : State) : (takeForce v s).umt = s.umt := by
  unfold takeForce
  split
  · exact (settleWork_umt _).trans (failbackTest_frame _).umt
  · simp only
    split
    · split <;> rfl
    · exact (settleWork_umt _).trans (startMigration_umt _ _ _)

theorem takeFailbackMode_umt (v : Word) (s : State) : (takeFailbackMode v s).umt = s.umt := by
  unfold takeFailbackMode
  split
  · exact (settleWork_umt _).trans (failbackTest_frame _).umt
  · simp only
    split <;> rfl

theorem takeRadioRestart_umt (s : State) : (takeRadioRestart s).umt = s.umt := by
  unfold takeRadioRestart
  simp only
  split
  · exact evalStandby_umt _
  · rfl

/-! ### Meters that only rise -/

/-- Neither byte meter of the first state is above its value in the second. -/
structure MetersRise (s t : State) : Prop where
  tx : s.umt.tx.toNat ≤ t.umt.tx.toNat
  rx : s.umt.rx.toNat ≤ t.umt.rx.toNat

theorem MetersRise.refl (s : State) : MetersRise s s := ⟨Nat.le_refl _, Nat.le_refl _⟩

theorem MetersRise.trans {s t u : State} (h : MetersRise s t) (k : MetersRise t u) : MetersRise s u :=
  ⟨Nat.le_trans h.tx k.tx, Nat.le_trans h.rx k.rx⟩

theorem MetersRise.of_eq {s t : State} (tx : t.umt.tx = s.umt.tx) (rx : t.umt.rx = s.umt.rx) : MetersRise s t :=
  ⟨Nat.le_of_eq (congrArg _ tx.symm), Nat.le_of_eq (congrArg _ rx.symm)⟩

theorem MetersRise.of_umt {s t : State} (h : t.umt = s.umt) : MetersRise s t :=
  .of_eq (congrArg Umt.tx h) (congrArg Umt.rx h)

theorem MetersRise.then_umt {s t u : State} (h : MetersRise s t) (k : u.umt = t.umt) : MetersRise s u :=
  h.trans (.of_umt k)

theorem MetersRise.from_umt {s t u : State} (k : MetersRise t u) (h : t.umt = s.umt) : MetersRise s u :=
  (MetersRise.of_umt h).trans k

theorem MetersRise.settled {s t : State} (h : MetersRise s t) : MetersRise s (settleWork t) :=
  h.then_umt (settleWork_umt t)

/-- The state a command answers, in place of the one it computes. -/
theorem MetersRise.next {s u t : State} (e : Host.Outcome.next (φ := Fault) (ρ := Refusal) u = .next t)
    (h : MetersRise s u) : MetersRise s t := Host.Outcome.next.inj e ▸ h

/-! #### The usage meter's own operations -/

theorem computeRegime_rise (s : State) : MetersRise s (computeRegime s) := by
  unfold computeRegime
  split
  · exact .of_umt rfl
  · refine MetersRise.then_umt ?_ (prompt_umt _)
    exact .of_eq rfl rfl

theorem meterTx_rise (s : State) (n : Nat) : MetersRise s (meterTx s n) :=
  MetersRise.trans (t := { s with umt.tx := addBytes s.umt.tx n }) ⟨le_addBytes _ _, Nat.le_refl _⟩ (computeRegime_rise _)

theorem meterRx_rise (s : State) (n : Nat) : MetersRise s (meterRx s n) :=
  MetersRise.trans (t := { s with umt.rx := addBytes s.umt.rx n }) ⟨Nat.le_refl _, le_addBytes _ _⟩ (computeRegime_rise _)

theorem refill_rise (s : State) : MetersRise s (refill s) := by
  unfold refill
  simp only
  split
  · refine MetersRise.then_umt ?_ (prompt_umt _)
    exact .of_eq rfl rfl
  · exact .of_eq rfl rfl

/-- A debounce state of the mains, and the regime computed. -/
theorem mainsRegime_rise (s : State) (m : MainsState) : MetersRise s (computeRegime { s with umt.mains := m }) :=
  MetersRise.trans (t := { s with umt.mains := m }) (.of_eq rfl rfl) (computeRegime_rise _)

theorem mainsFalls_rise (s : State) : MetersRise s (mainsFalls s) := by
  unfold mainsFalls
  split
  · simp only
    split
    · exact mainsRegime_rise s .absent
    · exact .of_eq rfl rfl
  · exact .of_umt rfl
  · exact .of_umt rfl

theorem mainsRises_rise (s : State) : MetersRise s (mainsRises s) := by
  unfold mainsRises
  split
  · exact .of_umt rfl
  · exact .of_eq rfl rfl
  · exact mainsRegime_rise s .present

theorem moveMains_rise (s : State) (level : Bool) : MetersRise s (moveMains s level) := by
  unfold moveMains
  split
  · exact .of_umt rfl
  · simp only
    split
    · apply MetersRise.settled
      split
      · exact (mainsRises_rise _).from_umt rfl
      · exact (mainsFalls_rise _).from_umt rfl
    · exact .of_umt rfl

/-! #### The engine's decisions, which touch the pool only (R53) -/

theorem creditAndRing_rise (s : State) (o : Operation) : MetersRise s (creditAndRing s o) := by
  unfold creditAndRing
  simp only
  split
  · exact .of_umt ((endOp_frame _ _).1.umt.trans (deferEntry_umt s o.slot))
  · split
    · exact .of_eq rfl rfl
    · split
      · exact .of_umt (abandonOp_frame s).1.umt
      · exact .of_umt rfl

theorem decideOp_rise (s : State) (o : Operation) : MetersRise s (decideOp s o) := by
  have deferred (b : Option Cls) : MetersRise s (endOp (deferEntry s o.slot) b) :=
    .of_umt ((endOp_frame _ b).1.umt.trans (deferEntry_umt s o.slot))
  unfold decideOp
  simp only
  split
  · exact creditAndRing_rise s o
  · split
    · exact .of_umt (endOp_frame _ none).1.umt
    · split
      · split
        · exact .of_umt (abandonOp_frame s).1.umt
        · exact deferred _
      · split
        · exact creditAndRing_rise s o
        · exact deferred _
        · exact .of_umt (endOp_frame _ none).1.umt

/-! #### Words taken by their owners (R33, R35, R38) -/

theorem mirrorCompletion_rise (s : State) (p : Path) (ps i : Nat) (w : Word) :
    MetersRise s (mirrorCompletion s p ps i w) := by
  unfold mirrorCompletion
  simp only
  split
  · exact (meterTx_rise _ _).from_umt (cancelIf_umt _ _ _)
  · exact .of_umt (cancelIf_umt _ _ _)

theorem takeCompletion_rise (s : State) (p : Path) (ps : Nat) (w : Word) : MetersRise s (takeCompletion s p ps w) := by
  unfold takeCompletion
  simp only
  split
  · split
    · exact mirrorCompletion_rise s p ps _ w
    · exact .of_umt rfl
  · split <;> exact .of_umt rfl

theorem passSlot_rise (s : State) (p : Path) (ps : Nat) : MetersRise s (passSlot s p ps) := by
  unfold passSlot
  simp only
  split
  · exact .of_umt rfl
  · split
    · split
      · exact (meterTx_rise _ _).from_umt (cancelIf_umt _ _ _)
      · exact .of_umt (cancelIf_umt _ _ _)
    · exact .of_umt rfl

theorem passLoop_rise (p : Path) (n : Nat) (i : Word) (s : State) : MetersRise s (passLoop p n i s) := by
  induction n generalizing i s with
  | zero => exact .of_umt rfl
  | succ n ih => exact (passSlot_rise s p _).trans (ih _ _)

theorem takeTxConsumer_rise (s : State) (p : Path) (v : Word) : MetersRise s (takeTxConsumer s p v) := by
  have waited : ∀ t : State, MetersRise t (endRingWait t p) := by
    intro t
    unfold endRingWait
    split
    · split
      · exact creditAndRing_rise t _
      · exact .of_umt rfl
    · exact .of_umt rfl
  unfold takeTxConsumer
  simp only
  split
  · have passed := passLoop_rise p (advance v (s.ring p).consumer) (s.ring p).consumer s
    split
    · exact passed.then_umt rfl
    · refine MetersRise.trans ?_ (waited _)
      exact passed.then_umt rfl
  · exact .of_umt (terminalIndex_umt s p)

theorem takeHeader_rise (s : State) (w : Nat) (v : Word) : MetersRise s (takeHeader s w v) := by
  unfold takeHeader
  split
  · exact .of_umt (takePost_umt s v)
  · exact .of_umt (takeReclaim_umt s v)
  · exact .of_umt (takeRelease_umt s v)
  · exact takeTxConsumer_rise s _ v
  · exact .of_umt (takeRxProducer_umt s _ v)
  · exact takeTxConsumer_rise s _ v
  · exact .of_umt (takeRxProducer_umt s _ v)
  · exact .of_umt rfl

theorem takeWord_rise (s : State) (c : NearCycle) (a : Addr) (v : Word) : MetersRise s (takeWord s c a v) := by
  have late (i : Nat) : (lateWrite s c i).umt = s.umt := by
    unfold lateWrite
    split <;> rfl
  unfold takeWord
  split
  · split
    · split
      · exact .of_umt (late _)
      · exact .of_umt rfl
    · split
      · exact takeHeader_rise s _ v
      · exact .of_umt rfl
    · split
      · exact .of_umt (takeFetch_umt s _ _)
      · exact .of_umt rfl
    · split
      · exact takeCompletion_rise s _ _ v
      · exact .of_umt rfl
    · split
      · exact meterRx_rise s _
      · exact .of_umt rfl
    · exact .of_umt rfl
  · exact .of_umt rfl

/-! #### Near words and grants -/

theorem grantWord_rise (s : State) (c : NearCycle) (a fa : Addr) (v : Word) (fhold : Bool) :
    MetersRise s (grantWord s c a fa v fhold) := by
  have taken := (takeWord_rise { s with fsp.holdTimer := 0, fsp.pins := s.nearPins c fa v } c a v).from_umt (s := s) rfl
  unfold grantWord
  simp only
  split
  · exact taken.then_umt rfl
  · exact taken.then_umt (transferWord_umt _ _ _ _)

theorem requestWord_rise (s : State) (c : NearCycle) (a fa : Addr) (v : Word) (fhold : Bool) :
    MetersRise s (requestWord s c a fa v fhold) := by
  have arbitrated : ∀ t : State, t.umt = s.umt →
      MetersRise s (if t.nearWins then grantWord (chargeNear t) c a fa v fhold else waitWord t c v) := by
    intro t h
    split
    · exact (grantWord_rise _ _ _ _ _ _).from_umt h
    · exact .of_umt ((waitWord_umt t c v).trans h)
  unfold requestWord
  split
  · exact .of_umt (waitWord_umt s c v)
  · exact .of_umt rfl
  · split
    · exact grantWord_rise s c a fa v fhold
    · exact arbitrated _ (closeRun_umt s)
  · exact arbitrated s rfl
  · exact arbitrated _ rfl

theorem nearWord_rise (s : State) (v : Word) (fhold : Bool) : MetersRise s (nearWord s v fhold) := by
  unfold nearWord
  split
  · exact .of_umt rfl
  · split
    · exact .of_umt rfl
    · split
      · exact .of_umt ((finishWord_umt _).trans (dataOut_umt s _ _))
      · split
        · split
          · exact .of_umt rfl
          · exact .of_umt (transferWord_umt s _ _ _)
        · simp only
          split
          · exact .of_umt ((finishWord_umt _).trans (closeRun_umt _))
          · exact .of_umt ((waitWord_umt _ _ _).trans (closeRun_umt s))
          · exact requestWord_rise s _ _ _ v fhold
          · exact requestWord_rise s _ _ _ v fhold

theorem nearGrant_rise (s : State) (v : Word) (fhold : Bool) : MetersRise s (nearGrant s v fhold) := by
  unfold nearGrant
  split
  · exact (nearWord_rise s v fhold).settled
  · exact .of_umt rfl

theorem grantNear_rise (s : State) : MetersRise s (grantNear s) := by
  unfold grantNear
  split
  · exact (grantWord_rise _ _ _ _ _ _).from_umt rfl
  · exact .of_umt rfl

theorem grantPort_rise (s : State) : MetersRise s (grantPort s) := by
  unfold grantPort
  split
  · simp only
    split
    · exact .of_umt rfl
    · split
      · refine MetersRise.settled ?_
        exact (grantNear_rise _).from_umt rfl
      · exact .of_umt (grantWork_umt _)
  · exact .of_umt rfl

/-! #### Completions, expiries and setting cycles -/

theorem completeAccess_rise (s : State) (k : AccessKind) (act : State → Access → State)
    (acts : ∀ u a, MetersRise u (act u a)) : MetersRise s (completeAccess s k act) := by
  unfold completeAccess
  split
  · exact .of_umt rfl
  · simp only
    split
    · exact (acts _ _).from_umt rfl
    · exact .of_umt rfl

theorem readDone_rise (d : Descriptor) (s : State) (a : Access) : MetersRise s (readDone d s a) := by
  unfold readDone
  split
  · exact .of_umt rfl
  · refine MetersRise.settled ?_
    exact (decideOp_rise _ _).from_umt rfl

theorem copyDone_rise (s : State) (a : Access) : MetersRise s (copyDone s a) := by
  unfold copyDone
  split
  · exact .of_umt rfl
  · exact (MetersRise.of_umt (publish_umt s _)).settled

theorem withdrawalDone_rise (s : State) (a : Access) : MetersRise s (withdrawalDone s a) := by
  unfold withdrawalDone
  split
  · exact .of_umt rfl
  · exact (MetersRise.of_umt (withdrawn_umt s _)).settled

theorem becomeActive_rise (s : State) : MetersRise s (becomeActive s) := by
  have served : ∀ (t : State) (p : Option Path),
      (if p = none then takeFault (setService t p) .noPath none none else setService t p).umt = t.umt := by
    intro t p
    split <;> exact setService_umt t p
  unfold becomeActive
  simp only
  refine MetersRise.settled (MetersRise.then_umt ?_ (served _ _))
  exact .of_eq rfl rfl

theorem startWriteDone_rise (s : State) (a : Access) : MetersRise s (startWriteDone s a) := by
  unfold startWriteDone
  split
  case h_5 =>
    split
    · exact becomeActive_rise s
    · exact .of_umt rfl
  all_goals exact .of_umt rfl

theorem expiry_rise (s : State) (runs : Bool) (act : State → State) (acts : ∀ u, MetersRise u (act u)) :
    MetersRise s (expiry s runs act) := by
  unfold expiry
  split
  · exact (acts s).settled
  · exact .of_umt rfl

theorem writeCycle_rise (s : State) (tag : Tag) (addr : Addr) (v : Word) (owner : State → Option RefusalCause)
    (take : State → State) (takes : ∀ u, MetersRise u (take u)) : MetersRise s (writeCycle s tag addr v owner take) := by
  unfold writeCycle
  split
  · simp only
    split
    · exact .of_umt rfl
    · split
      · exact .of_umt (refuse_umt _ _ _ _ _)
      · split
        · exact .of_umt (refuse_umt _ _ _ _ _)
        · exact (takes _).from_umt rfl
  · exact .of_umt rfl

/-- A read latches copies of the meters and leaves the meters themselves (R143, R144). -/
theorem readCycle_rise (s : State) (tag : Tag) (addr : Addr) : MetersRise s (readCycle s tag addr) := by
  have latched : ∀ (t : State) (g i x : Nat) (w : Word),
      MetersRise t { takeReadEffect t g i x with nsi.dataOut := w } := by
    intro t g i x w
    rw [takeReadEffect_latched]
    unfold State.latched
    repeat (split; · exact .of_eq rfl rfl)
    exact .of_umt rfl
  unfold readCycle
  split
  · simp only
    split
    · exact .of_umt rfl
    · split
      · exact .of_umt (refuse_umt _ _ _ _ _)
      · exact (latched { s with nsi.near := none } _ _ _ _).from_umt rfl
  · exact .of_umt rfl

/-! #### Taken settings -/

theorem takeCap_rise (c : Cap) (v : Word) (s : State) : MetersRise s (takeCap c v s) := by
  refine MetersRise.settled ?_
  exact (computeRegime_rise _).from_umt rfl

theorem expireIf_rise (due : Bool) (act : State → State) (s : State) (acts : MetersRise s (act s)) :
    MetersRise s (expireIf due act s) := by
  unfold expireIf
  split
  · exact acts.settled
  · exact .of_umt rfl

theorem afterTiming_rise (s : State) (i : Nat) : MetersRise s (afterTiming s i) := by
  unfold afterTiming
  split
  · exact expireIf_rise _ _ s (.of_umt (badConfirm_umt s _))
  · exact expireIf_rise _ _ s (.of_umt (badConfirm_umt s _))
  · have inLine : (syncTimers s).umt = s.umt := (congrArg State.umt (syncTimers_inLine s)).trans rfl
    exact ((MetersRise.of_umt inLine).trans (expireIf_rise _ _ _ (.of_umt (stallExpires_umt _ _)))).trans
      (expireIf_rise _ _ _ (.of_umt (stallExpires_umt _ _)))
  · exact expireIf_rise _ _ s (.of_umt (quietExpires_umt s _))
  · exact expireIf_rise _ _ s (.of_umt (quietExpires_umt s _))
  · exact expireIf_rise _ _ s (.of_umt (testWait_frame _).umt)
  · exact .of_umt rfl

theorem afterRadio_rise (s : State) (i : Nat) : MetersRise s (afterRadio s i) := by
  unfold afterRadio
  split
  · exact expireIf_rise _ _ s (.of_umt (attachExpires_umt s))
  · split <;> exact .of_umt rfl
  · split
    · exact .of_umt (evalStandby_umt _)
    · exact .of_umt rfl
  · exact expireIf_rise _ _ s (mainsRegime_rise s .absent)
  · exact .of_umt rfl

/-- A METERING item other than the preset (R146). -/
theorem takeMetering_rise (s : State) {i : Nat} (x : BitVec 8) (v : Word) (h : i ≠ 6) :
    MetersRise s (takeMetering i x v s) := by
  unfold takeMetering
  split
  · exact takeCap_rise .soft v s
  · exact takeCap_rise .hard v s
  · exact .of_eq rfl rfl
  · exact absurd rfl h
  · simp only
    split
    · exact (expireIf_rise _ _ _ (refill_rise _)).from_umt rfl
    · exact .of_umt rfl

/-- No item past 10 is a command (R180). -/
theorem takeCommand_undefined (s : State) {i : Nat} (v : Word) (h : 10 < i) : takeCommand i v s = s := by
  unfold takeCommand
  split
  case h_12 => rfl
  all_goals exact absurd h (by decide)

/-- A setting of SETTING_WRITE is neither the preset nor a command item (R145, R146). -/
theorem takeSetting_rise (s : State) (addr : Addr) (v : Word)
    (h : Instr.ownWriteRow (settingGroup addr).toNat (settingItem addr).toNat = false) :
    MetersRise s (takeSetting addr v s) := by
  unfold takeSetting
  simp only
  split
  · exact .of_umt rfl
  · exact .of_umt (resizeTables_umt _ _)
  · exact .of_umt rfl
  · exact (afterTiming_rise _ _).from_umt rfl
  · split
    · exact .of_umt (takeStandby_umt v s)
    · exact (afterRadio_rise _ _).from_umt rfl
  · rename_i metering
    exact takeMetering_rise s _ v fun preset => by simp [Instr.ownWriteRow, metering, preset] at h
  · rename_i command
    have undefined : 10 < (settingItem addr).toNat := by simpa [Instr.ownWriteRow, command] using h
    exact .of_umt (congrArg State.umt (takeCommand_undefined s v undefined))
  · exact .of_umt rfl

/-! #### Commands -/

/-- Settles O60: by the command, each of which ends in one of the operations above; a meter is only ever added to
(`le_addBytes`), and what lowers one is excluded. -/
theorem metersNeverFall : Obligations.MetersNeverFall := by
  intro c s t wf keeps e
  suffices rises : MetersRise s t from ⟨rises.tx, rises.rx⟩
  have kept {u : State} (h : u.umt = s.umt) (e : Host.Outcome.next (φ := Fault) (ρ := Refusal) u = .next t) :
      MetersRise s t := .next e (.of_umt h)
  cases c with
  | resetAssert | resetRelease | meterPreset tag x v | periodRestart tag x v => exact Bool.noConfusion keeps
  | settleEnd => exact kept (u := endSettle s) rfl e
  | nearCycleBegin addr dir burst tag cfgn msetn => exact kept (beginCycle_umt s _) e
  | nearWordGrant data fhold => exact .next e (nearGrant_rise s data fhold)
  | selRise => exact kept (endCycle_umt s) e
  | settingWrite tag addr v =>
    refine .next e (writeCycle_rise s _ _ _ _ _ fun u => takeSetting_rise u addr v ?_)
    exact (Bool.not_eq_true' _).mp wf
  | settingBurst tag addr dir => exact kept (burstCycle_umt s tag addr dir) e
  | standbyPolicySetting tag x v => exact .next e (writeCycle_rise s _ _ _ _ _ fun u => .of_umt (takeStandby_umt v u))
  | capSetting cap tag x v => exact .next e (writeCycle_rise s _ _ _ _ _ (takeCap_rise cap v))
  | poolCeilingSetting tag x v => exact .next e (writeCycle_rise s _ _ _ _ _ fun _ => .of_eq rfl rfl)
  | meterSnapshotRead tag => exact .next e (readCycle_rise s _ _)
  | summaryLatchRead tag => exact .next e (readCycle_rise s _ _)
  | uptimeLatchRead tag => exact .next e (readCycle_rise s _ _)
  | faultRecordLatchRead sel tag => exact .next e (readCycle_rise s _ _)
  | alertPendingRead tag x => exact .next e (readCycle_rise s _ _)
  | refusedSettingRead tag addr => exact .next e (readCycle_rise s _ _)
  | start tag x v => exact .next e (writeCycle_rise s _ _ _ _ _ fun _ => .of_umt rfl)
  | halt tag x v => exact .next e (writeCycle_rise s _ _ _ _ _ fun u => .of_umt (enterHalted_umt u))
  | reconfigure tag x v => exact .next e (writeCycle_rise s _ _ _ _ _ fun _ => .of_umt rfl)
  | forcePath tag x v => exact .next e (writeCycle_rise s _ _ _ _ _ fun u => .of_umt (takeForce_umt v u))
  | failbackNow tag x v =>
    refine .next e (writeCycle_rise s _ _ _ _ _ fun u => MetersRise.settled ?_)
    exact .of_umt (startMigration_umt _ _ _)
  | failbackMode tag x v => exact .next e (writeCycle_rise s _ _ _ _ _ fun u => .of_umt (takeFailbackMode_umt v u))
  | radioRestart tag x v => exact .next e (writeCycle_rise s _ _ _ _ _ fun u => .of_umt (takeRadioRestart_umt u))
  | clearAlerts tag x v => exact .next e (writeCycle_rise s _ _ _ _ _ fun _ => .of_umt rfl)
  | clearFaults tag x v => exact .next e (writeCycle_rise s _ _ _ _ _ fun _ => .of_umt rfl)
  | alertEnable tag x v => exact .next e (writeCycle_rise s _ _ _ _ _ fun _ => .of_umt rfl)
  | farGrant =>
    refine .next e ?_
    split
    · exact (grantPort_rise s).then_umt ((congrArg State.umt (syncStreak_frame _)).trans rfl)
    · exact .of_umt rfl
  | farHoldLimit => exact kept (holdLimit_umt s) e
  | placementReadComplete words => exact .next e (completeAccess_rise s _ _ (readDone_rise words))
  | publication => exact .next e (completeAccess_rise s _ _ copyDone_rise)
  | withdrawalWriteComplete => exact .next e (completeAccess_rise s _ _ withdrawalDone_rise)
  | mirrorWriteComplete => exact .next e (completeAccess_rise s _ _ fun u a => .of_umt (serviceWriteDone_umt u a))
  | finalWriteComplete => exact .next e (completeAccess_rise s _ _ fun u a => .of_umt (serviceWriteDone_umt u a))
  | headerWriteComplete => exact .next e (completeAccess_rise s _ _ fun u _ => .refl u)
  | startReadComplete v => exact .next e (completeAccess_rise s _ _ fun u a => .of_umt (startReadDone_umt v u a))
  | startWriteComplete => exact .next e (completeAccess_rise s _ _ startWriteDone_rise)
  | lineChange p level => exact kept (moveLine_umt s p level) e
  | confirmTimerExpiry p => exact .next e (expiry_rise s _ _ fun u => .of_umt (badConfirm_umt u p))
  | heartbeatIntervalEnd => exact .next e (expiry_rise s _ _ fun u => .of_umt (heartbeatEnd_umt u))
  | stallTimerExpiry p => exact .next e (expiry_rise s _ _ fun u => .of_umt (stallExpires_umt u p))
  | attachTimerExpiry => exact .next e (expiry_rise s _ _ fun u => .of_umt (attachExpires_umt u))
  | powerOffTimerExpiry => refine kept ?_ e; split <;> rfl
  | keepTimerExpiry =>
    refine kept ?_ e
    split
    · exact evalStandby_umt _
    · rfl
  | flapExpiry => refine kept ?_ e; split <;> rfl
  | deferralExpiry =>
    refine kept ?_ e
    split
    · exact deferralTick_umt s
    · rfl
  | quietTimerExpiry a => exact .next e (expiry_rise s _ _ fun u => .of_umt (quietExpires_umt u a))
  | failbackWaitExpiry => exact .next e (expiry_rise s _ _ fun _ => .of_umt (testWait_frame _).umt)
  | mainsChange level => exact .next e (moveMains_rise s level)
  | mainsConfirmExpiry => exact .next e (expiry_rise s _ _ fun u => mainsRegime_rise u .absent)
  | creditRefill => exact .next e (expiry_rise s _ _ refill_rise)

end Sys2Proof.Machine

/-! SUPPORT. Setting reads: which are refused and which answered (R176, R182 to R185), and what the latching reads copy (R143,
R144, R183 to R185). -/

namespace Sys2Proof.Machine

/-! ### The tests of a read (R176) -/

theorem readDefined_iff (g i x : Nat) : readDefined g i x = true ↔ definedRead g i x := by
  match g with
  | 0 | 1 | 2 | 3 | 4 | 5 | 6 | 7 | _ + 11 => simp [readDefined, writeDefined, definedRead, definedWrite]
  | 8 =>
    match i with
    | 0 | 1 | 2 | 3 | 4 | 5 | 6 | 7 | 8 | 9 | 10 | 11 | 12 | 13 | _ + 14 => simp [readDefined, definedRead, definedWrite]
  | 9 | 10 =>
    match i with
    | 0 | 1 | 2 | _ + 3 => simp [readDefined, definedRead, definedWrite]

section
variable {tag : Tag} {addr : Addr}

theorem judgeRead_terminal (terminal : tag = .fibreTerm ∨ tag = .radioTerm) : judgeRead tag addr = some .guard :=
  if_pos (isController_terminal terminal)

theorem judgeRead_controller (controller : tag = .supervisor ∨ tag = .user) : judgeRead tag addr =
    if definedRead (settingGroup addr).toNat (settingItem addr).toNat (settingIndex addr).toNat then none
    else some .unknown := by
  unfold judgeRead
  simp only [(isController_iff tag).mpr controller, ← readDefined_iff]
  cases readDefined _ _ _ <;> rfl

end

/-! ### What a read latches and answers -/

/-- The near cycle's end is no part of what a read latches. -/
theorem latched_ended (s : State) (g i x : Nat) (w : Word) :
    { ({ s with nsi.near := none } : State).latched g i x with nsi.dataOut := w } =
      { s.latched g i x with nsi.near := none, nsi.dataOut := w } := by
  unfold State.latched
  repeat (split; · rfl)
  rfl

theorem latched_nsi (s : State) (g i x : Nat) : (s.latched g i x).nsi = s.nsi := by
  unfold State.latched
  repeat (split; · rfl)
  rfl

/-- A defined read of a controller is answered by the tables and latches (R182 to R185). -/
theorem readCycle_controller {s : State} {tag : Tag} {addr : Addr} (judges : s.judges .read tag addr)
    (controller : tag = .supervisor ∨ tag = .user)
    (d : definedRead (settingGroup addr).toNat (settingItem addr).toNat (settingIndex addr).toNat) :
    readCycle s tag addr =
      { s.latched (settingGroup addr).toNat (settingItem addr).toNat (settingIndex addr).toNat with
        nsi.near := none
        nsi.dataOut := BitVec.ofNat 16
          (s.reading (settingGroup addr).toNat (settingItem addr).toNat (settingIndex addr).toNat) } := by
  have item := (settingItem addr).isLt
  rw [readCycle_answered s tag addr judges ((judgeRead_controller controller).trans (if_pos d)), takeReadEffect_latched,
    readWord_reading _ _ _ _ d (by omega)]
  exact latched_ended s _ _ _ _

/-- Every command that reads a setting is the read cycle of its address. -/
theorem exec_read {c : Instr} {tag : Tag} {addr : Addr} (s : State) (h : readOf c = some (tag, addr)) :
    exec c s = .next (readCycle s tag addr) := by
  cases c with
  | meterSnapshotRead t | summaryLatchRead t | uptimeLatchRead t | alertPendingRead t x | refusedSettingRead t a =>
    obtain ⟨rfl, rfl⟩ := Prod.mk.inj (Option.some.inj h)
    rfl
  | faultRecordLatchRead sel t =>
    cases sel <;>
    · obtain ⟨rfl, rfl⟩ := Prod.mk.inj (Option.some.inj h)
      rfl
  | capSetting cap t x v => cases cap <;> cases h
  | _ => cases h

/-- Settles O19: `judgeRead_terminal` and `judgeRead_controller` say which reads are refused, `readCycle_controller` what the
others answer. -/
theorem settingReadsAnswer : Obligations.SettingReadsAnswer := by
  intro c tag addr s h judges g i x
  rw [exec_read s h]
  refine ⟨fun terminal => ?_, fun controller undefined => ?_, fun controller d => ?_⟩
  · exact congrArg _ (readCycle_refused s tag addr .guard judges (judgeRead_terminal terminal))
  · exact congrArg _ (readCycle_refused s tag addr .unknown judges
      ((judgeRead_controller controller).trans (if_neg undefined)))
  · exact congrArg _ (readCycle_controller judges controller d)

/-! ### The latching reads -/

/-- A controller's defined read on an idle interface, by the fields of its address: what it latches, and the word it returns
(R172). -/
theorem exec_latchingRead {s : State} {c : Instr} {tag : Tag} {g i : BitVec 4} {x : BitVec 8}
    (rstn : s.rstn = true) (settle : s.settle = none) (near : s.nsi.near = none)
    (controller : tag = .supervisor ∨ tag = .user) (h : readOf c = some (tag, settingAddr g i x))
    (d : definedRead g.toNat i.toNat x.toNat) :
    exec c s = .next
      { s.latched g.toNat i.toNat x.toNat with nsi.dataOut := readWord s g.toNat i.toNat x.toNat } := by
  have judges : s.judges .read tag (settingAddr g i x) := ⟨by simp [State.cycleFits, rstn, near], settle⟩
  have idle : (s.latched g.toNat i.toNat x.toNat).nsi.near = none := (congrArg Nsi.near (latched_nsi s _ _ _)).trans near
  rw [exec_read s h, readCycle_controller judges controller (by simpa using d)]
  simp only [settingGroup_settingAddr, settingItem_settingAddr, settingIndex_settingAddr]
  rw [readWord_reading s _ _ _ d (Nat.le_of_lt_succ i.isLt), ← idle]

/-- The class of a fault record is its first field, 0 where there is none (R185). -/
theorem recordField_class (r : Option FaultRec) : recordField r 0 = match r with
    | none => 0
    | some f => match f.cls with | .notice => 1 | .path => 2 | .transfer => 3 | .integrity => 4 := by
  rcases r with _ | ⟨cls, _⟩
  · rfl
  · cases cls <;> rfl

/-- Settles O20: each read is `exec_latchingRead` at its address, which returns the low word or the class of what it
latches. -/
theorem latchingReadsSnapshot : Obligations.LatchingReadsSnapshot := by
  intro s tag x rstn settle near controller classOf mib
  have reads (g i : BitVec 4) (y : BitVec 8) {c : Instr} {w : Word} (h : readOf c = some (tag, settingAddr g i y))
      (d : definedRead g.toNat i.toNat y.toNat) (word : readWord s g.toNat i.toNat y.toNat = w) :
      exec c s = .next { s.latched g.toNat i.toNat y.toNat with nsi.dataOut := w } :=
    word ▸ exec_latchingRead rstn settle near controller h d
  have pending : s.pcf.pending.setWidth 16 = 0#9 ++ s.pcf.pending := BitVec.setWidth_eq_append (by decide)
  exact ⟨reads 9 0 0 rfl (by decide) rfl,
    reads 9 1 0 rfl (by decide) (readWord_reading s 9 1 0 (by decide) (by decide)),
    reads 8 12 0 rfl (by decide) rfl,
    reads 10 0 0 rfl (by decide) (recordField_class s.pcf.first),
    reads 10 1 0 rfl (by decide) (recordField_class s.pcf.last),
    reads 8 7 x rfl (by simp [definedRead]) pending⟩

end Sys2Proof.Machine

/-! SUPPORT. The usage meter's commands and events: caps, presets, PERIOD_RESTART and the pool ceiling (R145 to R150, R154), the
mains debounce (R147) and the refill (R153). -/

namespace Sys2Proof.Machine

/-! ### Words of a meter (R143, R146) -/

/-- A bit of a meter after a preset: the preset's in the word it names, the meter's own elsewhere. -/
theorem setWord64_bit (m : BitVec 64) (w : Word) {k n : Nat} (hn : n < 64) : (setWord64 m k w).getLsbD n =
    if 16 * k ≤ n ∧ n < 16 * k + 16 then w.getLsbD (n - 16 * k) else m.getLsbD n := by
  simp only [setWord64, BitVec.getLsbD_or, BitVec.getLsbD_and, BitVec.getLsbD_not, BitVec.getLsbD_shiftLeft,
    BitVec.getLsbD_setWidth, BitVec.getLsbD_allOnes, hn, decide_true, Bool.true_and]
  have inside : n - 16 * k < 64 := by omega
  split
  · rename_i named
    have low : n - 16 * k < 16 := by omega
    simp [inside, low, Nat.not_lt.mpr named.1]
  · rename_i other
    rcases Nat.lt_or_ge n (16 * k) with below | above
    · simp [below]
    · have past : 16 ≤ n - 16 * k := by omega
      simp [past]

/-- A preset replaces the word it names and keeps the other three. -/
theorem word64_setWord64 (m : BitVec 64) (w : Word) {k j : Nat} (hj : j ≤ 3) :
    word64 (setWord64 m k w) j = if j = k then w else word64 m j := by
  apply BitVec.eq_of_getLsbD_eq
  intro i hi
  have word (v : BitVec 64) : (word64 v j).getLsbD i = v.getLsbD (16 * j + i) := by simp [word64, hi]
  rw [word, setWord64_bit m w (by omega)]
  by_cases same : j = k
  · subst same
    simp [hi]
  · rw [if_neg same, if_neg (by omega), word]

/-! ### Caps, presets, PERIOD_RESTART and the ceiling -/

/-- A supervisor's METERING write is taken where its item is defined, the preset in CONFIG only (R176, R179). -/
theorem meteringCycle_taken {s : State} {item : BitVec 4} {x : BitVec 8} {v : Word}
    (h : s.judges .write .supervisor (settingAddr 5 item x)) (take : State → State)
    (defined : item.toNat ≤ 5 ∨ (item.toNat = 6 ∧ x.toNat ≤ 7 ∧ s.pcf.part = .config)) :
    writeCycle s .supervisor (settingAddr 5 item x) v noRefusal take = take { s with nsi.near := none } := by
  refine writeCycle_taken s _ _ v noRefusal take h (judgeWrite_setting _ _ v ?_ ?_ ?_ ?_) rfl
  · have range : item.toNat ≤ 5 ∨ item.toNat = 6 ∧ x.toNat ≤ 7 := defined.imp_right fun preset => ⟨preset.1, preset.2.1⟩
    simpa [definedWrite] using range
  · simp
  · suffices item.toNat = 6 → s.pcf.part = .config by simpa
    intro six
    exact defined.elim (fun low => by omega) fun preset => preset.2.2
  · simp

/-- The ceiling stored is the value written, or the default for 0 (R154, R179). -/
theorem storeMetering_ceiling (m : Metering) (v : Word) :
    storeMetering m 5 v.toNat = { m with ceiling := if v = 0 then 16000 else v.toNat } := by
  have zero : v.toNat = 0 ↔ v = 0 := ⟨fun h => BitVec.eq_of_toNat_eq h, fun h => h ▸ rfl⟩
  have stored : ranged 1 65535 16000 v.toNat = if v = 0 then 16000 else v.toNat := by
    have := v.isLt
    unfold ranged
    simp only [← zero]
    split <;> split <;> omega
  exact congrArg (fun c => { m with ceiling := c }) stored

/-- Settles O24: each write is taken (`meteringCycle_taken`), and `computeRegime` is the table's computation
(`computeRegime_regimed`); the words of a preset are those of `word64_setWord64`. -/
theorem meterCommandsComputeRegime : Obligations.MeterCommandsComputeRegime := by
  refine ⟨fun s c x v h => ?_, fun s x v h => ?_, fun s x v h config known => ?_, fun s x v h => ?_⟩
  · cases c with
    | soft =>
      refine congrArg _ ((meteringCycle_taken h (takeCap .soft v) (.inl (by decide))).trans ?_)
      exact congrArg settleWork (computeRegime_regimed _)
    | hard =>
      refine congrArg _ ((meteringCycle_taken h (takeCap .hard v) (.inl (by decide))).trans ?_)
      exact congrArg settleWork (computeRegime_regimed _)
  · refine congrArg _ ((commandCycle_taken h (by decide) rfl takePeriodRestart rfl).trans ?_)
    exact congrArg settleWork (computeRegime_regimed _)
  · have taken := meteringCycle_taken (v := v) h (takePreset x v) (.inr ⟨by decide, known, config⟩)
    by_cases low : x.toNat < 4
    · refine ⟨setWord64 s.umt.tx x.toNat v, s.umt.rx, congrArg _ (taken.trans ?_),
        fun _ => ⟨rfl, fun j hj => word64_setWord64 _ v hj⟩, fun high => by omega⟩
      rw [takePreset, if_pos low]
      exact computeRegime_regimed _
    · refine ⟨s.umt.tx, setWord64 s.umt.rx (x.toNat - 4) v, congrArg _ (taken.trans ?_), fun small => by omega,
        fun _ => ⟨rfl, fun j hj => word64_setWord64 _ v hj⟩⟩
      rw [takePreset, if_neg low]
      exact computeRegime_regimed _
  · intro ceiling
    refine congrArg _ ((meteringCycle_taken h (takeCeiling v) (.inl (by decide))).trans ?_)
    have clipped : min s.umt.pool ceiling = if ceiling < s.umt.pool then ceiling else s.umt.pool := by
      split <;> omega
    rw [← clipped]
    unfold takeCeiling
    rw [storeMetering_ceiling]

/-! ### The mains and the refill -/

theorem mainsAbsent_regimed (s : State) : mainsAbsent s = ({ s with umt.mains := .absent } : State).regimed :=
  computeRegime_regimed _

/-- A MAINS level that is new, with RSTN high: the debounce by its direction, and the work it causes (R147). -/
theorem exec_mainsChange_new {s t : State} {level : Bool} (rstn : s.rstn = true) (new : s.lines.mains ≠ level)
    (h : (if level then mainsRises { s with lines.mains := level } else mainsFalls { s with lines.mains := level }) = t) :
    exec (.mainsChange level) s = .next (settleWork t) := by
  have moved : moveMains s level = settleWork _ := (if_neg new).trans (if_pos rstn)
  rw [← h, ← moved]
  rfl

/-- The mains line falls while it is PRESENT: its confirm timer starts, and a confirm time of 0 confirms at once (R147). -/
theorem mainsFalls_present {s : State} (present : s.umt.mains = .present) : mainsFalls s =
    if s.sdc.settings.radio.mainsConfirm = 0 then ({ s with umt.mains := .absent } : State).regimed
    else { s with umt.mains := .falling 0 } := by
  have due : ({ s with umt.mains := .falling 0 } : State).mainsDue = true ↔ s.sdc.settings.radio.mainsConfirm = 0 := by
    have reached : ({ s with umt.mains := .falling 0 } : State).mainsDue =
        decide (s.sdc.settings.radio.mainsConfirm * 1024 ≤ 0) := rfl
    rw [reached, decide_eq_true_iff]
    omega
  unfold mainsFalls
  simp only [present, due, mainsAbsent_regimed]

theorem mainsRises_falling {s : State} {n : Nat} (falling : s.umt.mains = .falling n) :
    mainsRises s = { s with umt.mains := .present } := by
  unfold mainsRises
  simp only [falling]

theorem mainsRises_absent {s : State} (gone : s.umt.mains = .absent) :
    mainsRises s = ({ s with umt.mains := .present } : State).regimed := by
  unfold mainsRises
  simp only [gone, computeRegime_regimed]

theorem mainsRuns_iff (s : State) : s.mainsRuns = true ↔ ∃ n, s.umt.mains = .falling n := by
  unfold State.mainsRuns
  cases s.umt.mains <;> simp

/-- The pool after a refill: raised by the amount, up to the ceiling (R153). -/
theorem refill_prompted (s : State) (pool : Nat)
    (h : pool = min (s.umt.pool + s.sdc.settings.metering.amount) s.sdc.settings.metering.ceiling) :
    refill s = if s.swc.service = some .radio then ({ s with umt.pool := pool, umt.refill := 0 } : State).prompted
      else { s with umt.pool := pool, umt.refill := 0 } := by
  subst h
  unfold refill
  simp only [prompt_prompted]

/-- Settles O50: the mains by the debounce state (`mainsFalls_present`, `mainsRises_falling`, `mainsRises_absent`), and the
refill by `refill_prompted`. -/
theorem mainsAndRefill : Obligations.MainsAndRefill := by
  intro s moved absent refilled
  refine ⟨fun high => congrArg _ (if_pos high), fun low => congrArg _ (if_pos low),
    fun rstn high => ⟨fun present on => ?_, fun present off => ?_⟩,
    fun rstn low => ⟨fun n falling => ?_, fun gone => ?_⟩, fun rstn n falling => ?_,
    fun stopped => congrArg _ (expiry_stopped mainsAbsent (Bool.eq_false_iff.mpr fun runs => ?_)),
    fun rstn => congrArg _ ((expiry_running refill rstn rfl).trans ?_)⟩
  · exact exec_mainsChange_new rstn (by simp [high]) ((mainsFalls_present (s := moved false) present).trans (if_neg on))
  · exact exec_mainsChange_new rstn (by simp [high]) ((mainsFalls_present (s := moved false) present).trans (if_pos off))
  · exact exec_mainsChange_new rstn (by simp [low]) (mainsRises_falling falling)
  · exact exec_mainsChange_new rstn (by simp [low]) (mainsRises_absent gone)
  · exact congrArg _ ((expiry_running mainsAbsent rstn ((mainsRuns_iff s).mpr ⟨n, falling⟩)).trans
      (congrArg settleWork (mainsAbsent_regimed s)))
  · obtain ⟨n, falling⟩ := (mainsRuns_iff s).mp runs
    exact stopped n falling
  · refine congrArg settleWork (refill_prompted s _ ?_)
    split <;> omega

end Sys2Proof.Machine

/-! SUPPORT. The reset line, and how a near cycle begins and ends (R156, R158, R171, R186, R187). -/

namespace Sys2Proof.Machine

/-! ### The reset line -/

theorem exec_resetAssert_high {s : State} (rstn : s.rstn = true) :
    exec .resetAssert s = .next (State.lowReset s.lines s.pending) := congrArg Host.Outcome.next (if_pos rstn)

theorem exec_resetAssert_low {s : State} (rstn : s.rstn = false) : exec .resetAssert s = .next s :=
  congrArg Host.Outcome.next (if_neg (Bool.eq_false_iff.mp rstn))

theorem exec_resetRelease_low {s : State} (rstn : s.rstn = false) :
    exec .resetRelease s = .next { State.released s.lines s.pending with nsi.near := s.nsi.bus } :=
  congrArg Host.Outcome.next (if_neg (Bool.eq_false_iff.mp rstn))

theorem exec_resetRelease_high {s : State} (rstn : s.rstn = true) : exec .resetRelease s = .next s :=
  congrArg Host.Outcome.next (if_pos rstn)

/-- Settles O4: each command of the reset line by the level of RSTN it meets. -/
theorem resetLineRestartsPart : Obligations.ResetLineRestartsPart :=
  ⟨fun _ rstn => ⟨_, exec_resetAssert_high rstn, rfl, rfl, rfl, rfl, rfl, rfl, rfl⟩,
    fun _ rstn => exec_resetAssert_low rstn,
    fun _ rstn => ⟨_, exec_resetRelease_low rstn, rfl, rfl, rfl, rfl, rfl, rfl, rfl, rfl, rfl, rfl, rfl, rfl, rfl, rfl⟩,
    fun _ rstn => exec_resetRelease_high rstn, fun _ => rfl⟩

/-! ### Address valid and SEL -/

theorem beginCycle_idle {s : State} (c : NearCycle) (rstn : s.rstn = true) (near : s.nsi.near = none) :
    beginCycle s c = { s with nsi.near := some c } := by
  simp [beginCycle, rstn, near]

theorem beginCycle_present {s : State} (c : NearCycle) (rstn : s.rstn = true) (near : s.nsi.near ≠ none) :
    beginCycle s c = s := by
  simp [beginCycle, rstn, near]

theorem beginCycle_reset {s : State} (c : NearCycle) (rstn : s.rstn = false) (bus : s.nsi.bus = none) :
    beginCycle s c = { s with nsi.bus := some c } := by
  simp [beginCycle, rstn, bus]

theorem beginCycle_reset_present {s : State} (c : NearCycle) (rstn : s.rstn = false) (bus : s.nsi.bus ≠ none) :
    beginCycle s c = s := by
  simp [beginCycle, rstn, bus]

/-- SEL rising ends the cycle; the port gives up a run and keeps a word memory holds (R158). -/
theorem endCycle_port {s : State} (rstn : s.rstn = true) :
    endCycle s = { s with
      nsi.near := none
      fsp.port := match s.fsp.port with | .nearHeld w => .nearOrphan w | .nearRun _ => .free | q => q } := by
  rw [endCycle, if_pos rstn]
  cases port : s.fsp.port <;> simp only <;> rw [← port]

/-- Settles O5: an address valid by the cycle it meets (`beginCycle_idle` and the three after it), SEL by what the port
serves (`endCycle_port`). -/
theorem nearCycleBeginsAndEnds : Obligations.NearCycleBeginsAndEnds := by
  refine ⟨?_, fun s => ⟨fun rstn port => ?_, fun rstn w port => ?_, fun rstn port => ?_, fun rstn => ?_⟩⟩
  · intro s addr dir burst tag cfgn msetn latched
    exact ⟨fun rstn near => congrArg Host.Outcome.next (beginCycle_idle latched rstn near),
      fun rstn near => congrArg Host.Outcome.next (beginCycle_present latched rstn near),
      fun rstn bus => congrArg Host.Outcome.next (beginCycle_reset latched rstn bus),
      fun rstn bus => congrArg Host.Outcome.next (beginCycle_reset_present latched rstn bus)⟩
  · refine congrArg Host.Outcome.next ((endCycle_port rstn).trans ?_)
    rcases port with port | ⟨l, port⟩ <;> rw [port]
  · refine congrArg Host.Outcome.next ((endCycle_port rstn).trans ?_)
    rw [port]
  · refine congrArg Host.Outcome.next ((endCycle_port rstn).trans ?_)
    rcases port with ⟨w, port⟩ | ⟨a, port⟩ <;> simp only [port] <;> rw [← port]
  · exact congrArg Host.Outcome.next (if_neg (Bool.eq_false_iff.mp rstn))

end Sys2Proof.Machine

/-! SUPPORT. The words of a near burst and the block they cover (R156, R157). -/

namespace Sys2Proof.Machine

/-! ### Burst offsets (R157) -/

theorem burstWords_eq (code : Nat) :
    burstWords code = if code = 0 then 4 else if code = 1 then 8 else 16 := by
  match code with
  | 0 | 1 | _ + 2 => simp [burstWords]

/-- The words of a burst are a power of two. -/
theorem burstWords_pow (code : Nat) : ∃ e, e ≤ 24 ∧ burstWords code = 2 ^ e := by
  match code with
  | 0 => exact ⟨2, by decide, rfl⟩
  | 1 => exact ⟨3, by decide, rfl⟩
  | _ + 2 => exact ⟨4, by decide, rfl⟩

theorem burstOffset_lt (order : Nat) {e b k : Nat} (hb : b < 2 ^ e) (hk : k < 2 ^ e) :
    burstOffset order (2 ^ e) b k < 2 ^ e := by
  unfold burstOffset
  split
  · exact Nat.mod_lt _ (Nat.two_pow_pos e)
  · exact Nat.xor_lt_two_pow hb hk

/-- The start from which an order takes the offsets of a burst from `b` back to the places of its words: the rest of the
block for a wrapped burst, and `b` itself for an exclusive-or. -/
def returnStart (order n b : Nat) : Nat := if order = 0 then n - b else b

/-- Two starts undo each other where they make up the block (a wrapped burst) or are the same (an exclusive-or). -/
theorem burstOffset_undo {order n b c k : Nat} (wrapped : order = 0 → c + b = n) (exclusive : order ≠ 0 → c = b)
    (hk : k < n) : burstOffset order n c (burstOffset order n b k) = k := by
  unfold burstOffset
  by_cases zero : order = 0
  · rw [if_pos zero, if_pos zero, Nat.add_mod_mod, ← Nat.add_assoc, wrapped zero, Nat.add_mod_left, Nat.mod_eq_of_lt hk]
  · rw [if_neg zero, if_neg zero, exclusive zero]
    show b ^^^ (b ^^^ k) = k
    rw [← Nat.xor_assoc, Nat.xor_self, Nat.zero_xor]

/-- No two words of a burst have one offset, in either order. -/
theorem burstOffset_inj (order : Nat) {n b j k : Nat} (hb : b < n) (hj : j < n) (hk : k < n)
    (same : burstOffset order n b j = burstOffset order n b k) : j = k := by
  have back : ∀ i, i < n → burstOffset order n (returnStart order n b) (burstOffset order n b i) = i := fun i hi =>
    burstOffset_undo (fun zero => by rw [returnStart, if_pos zero]; omega) (fun other => if_neg other) hi
  rw [← back j hj, ← back k hk, same]

/-- Every offset of the block is that of a word. -/
theorem burstOffset_surj (order : Nat) {e b j : Nat} (hb : b < 2 ^ e) (hj : j < 2 ^ e) :
    ∃ k, k < 2 ^ e ∧ burstOffset order (2 ^ e) b k = j := by
  refine ⟨burstOffset order (2 ^ e) (returnStart order (2 ^ e) b) j, ?_, burstOffset_undo (fun zero => ?_)
    (fun other => (if_neg other).symm) hj⟩
  · by_cases zero : order = 0
    · rw [burstOffset, if_pos zero]
      exact Nat.mod_lt _ (Nat.two_pow_pos e)
    · rw [returnStart, if_neg zero]
      exact burstOffset_lt order hb hj
  · rw [returnStart, if_pos zero]
    omega

/-- Blocks that divide a space evenly lie inside it. -/
theorem blockWord_lt {a n m off : Nat} (ha : a < m) (whole : n ∣ m) (hoff : off < n) : a / n * n + off < m :=
  calc a / n * n + off < (a / n + 1) * n := by rw [Nat.succ_mul]; exact Nat.add_lt_add_left hoff _
    _ ≤ m / n * n := Nat.mul_le_mul_right n (Nat.div_lt_div_of_lt_of_dvd whole ha)
    _ = m := Nat.div_mul_cancel whole

section
variable {s : State} {c : NearCycle} (burst : c.burst = true)
include burst

theorem cycleLength_burst : s.cycleLength c = burstWords s.sdc.settings.bus.length := if_pos burst

/-- Word `k` of a burst: the block of its latched address, and the offset its order gives. -/
theorem wordAddr_burst {k : Nat} (hk : k < s.cycleLength c) :
    (s.wordAddr c k).toNat = c.addr.toNat / s.cycleLength c * s.cycleLength c +
      burstOffset s.sdc.settings.bus.order (s.cycleLength c) (c.addr.toNat % s.cycleLength c) k := by
  obtain ⟨e, small, pow⟩ := burstWords_pow s.sdc.settings.bus.length
  rw [cycleLength_burst burst, pow] at hk ⊢
  have offset := burstOffset_lt s.sdc.settings.bus.order (Nat.mod_lt c.addr.toNat (Nat.two_pow_pos e)) hk
  rw [State.wordAddr, if_pos burst, pow, BitVec.toNat_ofNat,
    Nat.mod_eq_of_lt (blockWord_lt c.addr.isLt (Nat.pow_dvd_pow 2 small) offset)]

end

/-- Settles O10: the words of a burst (`wordAddr_burst`) run through the offsets of their block, each once
(`burstOffset_surj`, `burstOffset_inj`). -/
theorem burstWordsCoverBlock : Obligations.BurstWordsCoverBlock := by
  refine ⟨fun s c single => ⟨by simp [State.cycleLength, single], by simp [State.wordAddr, single]⟩, ?_⟩
  intro s c burst _ n base start
  have length : s.cycleLength c = n := (cycleLength_burst burst).trans (burstWords_eq _)
  have word : ∀ k, k < n → (s.wordAddr c k).toNat = base + burstOffset s.sdc.settings.bus.order n start k := by
    intro k hk
    have found := wordAddr_burst burst (Nat.lt_of_lt_of_eq hk length.symm)
    rwa [length] at found
  obtain ⟨e, -, pow⟩ := burstWords_pow s.sdc.settings.bus.length
  have size : n = 2 ^ e := (burstWords_eq _).symm.trans pow
  have inBlock : start < 2 ^ e := size ▸ Nat.mod_lt _ (size ▸ Nat.two_pow_pos e)
  refine ⟨length, fun k hk wrapped => ?_, fun k hk exclusive => ?_, fun j hj => ?_, fun j k hj hk same => ?_⟩
  · rw [word k hk, burstOffset, if_pos wrapped]
  · rw [word k hk, burstOffset, if_neg exclusive]
  · obtain ⟨k, hk, hit⟩ := burstOffset_surj s.sdc.settings.bus.order inBlock (Nat.lt_of_lt_of_eq hj size)
    rw [← size] at hk hit
    exact ⟨k, hk, by rw [word k hk, hit]⟩
  · have offsets := (word j hj).symm.trans ((congrArg BitVec.toNat same).trans (word k hk))
    exact burstOffset_inj _ (Nat.lt_of_lt_of_eq inBlock size.symm) hj hk (Nat.add_left_cancel offsets)

end Sys2Proof.Machine

/-! SUPPORT. The far-side port as the near side meets it: the far hold limit, runs and FSEL, words in CONFIG, and the grants
of R165's table (R158 to R169). -/

namespace Sys2Proof.Machine

/-! ### The far hold limit (R167, R168) -/

theorem tagPath_eq (t : Tag) :
    tagPath t = match t with | .fibreTerm => some .fibre | .radioTerm => some .radio | _ => none := by
  cases t <;> rfl

/-- The fault of a near word at the limit, by its tag. -/
theorem nearTimeout_faulted (s : State) (w : NearFlight) : nearTimeout s w = s.faulted .transfer .farTimeout
    (match w.tag with | .fibreTerm => some .fibre | .radioTerm => some .radio | _ => none) none := by
  rw [← tagPath_eq]
  exact takeFault_faulted s .farTimeout (tagPath w.tag) none

/-- A cycle whose word met the limit: a read returns 0xFFFF, and what is left of the cycle is dead. -/
theorem killCycle_near {s : State} {c : NearCycle} (w : NearFlight) (near : s.nsi.near = some c) :
    killCycle s w = { s with
      nsi.near := if s.cycleLength c ≤ c.pos + 1 then none else some { c with pos := c.pos + 1, dead := true, data := none }
      nsi.dataOut := if w.dir = .read then 0xFFFF else s.nsi.dataOut } := by
  unfold killCycle
  split <;> exact finishWord_near (c := { c with dead := true }) (by simp [near])

/-- A word of a dead cycle completes empty (R168). -/
theorem nearWord_dead {s : State} {c : NearCycle} (v : Word) (fhold : Bool) (near : s.nsi.near = some c)
    (cfgn : c.cfgn = true) (dead : c.dead = true) :
    nearWord s v fhold = { s with
      nsi.near := if s.cycleLength c ≤ c.pos + 1 then none else some { c with pos := c.pos + 1, data := none }
      nsi.dataOut := if c.dir = .read then 0xFFFF else s.nsi.dataOut } := by
  have ended : nearWord s v fhold = finishWord (if c.dir = .read then { s with nsi.dataOut := 0xFFFF } else s) := by
    simp [nearWord, near, cfgn, dead]
  rw [ended]
  split <;> exact finishWord_near near

/-- Settles O35: a word in transfer by whether its near cycle is still there (`killCycle_near`), a later word of the cycle
by `nearWord_dead`, and a port with no word in transfer. -/
theorem nearWordMeetsHoldLimit : Obligations.NearWordMeetsHoldLimit := by
  refine ⟨fun s w c held near => ?_, fun s w orphan => ?_, fun s c v fhold rstn near cfgn dead => ?_, fun s port => ?_⟩
  · refine congrArg Host.Outcome.next ?_
    rw [holdLimit, held]
    exact (nearTimeout_faulted _ w).trans (congrArg (State.faulted · .transfer .farTimeout _ none) (killCycle_near w near))
  · refine congrArg Host.Outcome.next ?_
    rw [holdLimit, orphan]
    exact nearTimeout_faulted _ w
  · exact exec_nearWordGrant rstn (nearWord_dead v fhold near cfgn dead)
  · refine congrArg Host.Outcome.next ?_
    rcases port with port | ⟨l, port⟩ <;> rw [holdLimit, port]

/-! ### The near run and FSEL (R162) -/

/-- A run goes on where the word presented is at the next address up. -/
theorem runGoesOn_iff (s : State) (last : Addr) :
    s.runGoesOn last = true ↔ ∃ c fa, s.presents c fa ∧ fa.toNat = last.toNat + 1 := by
  constructor
  · intro on
    unfold State.runGoesOn at on
    split at on
    · cases on
    · rename_i fa presented
      obtain ⟨c, presents⟩ := (presented_iff s fa).1 presented
      exact ⟨c, fa, presents, (followsRun_iff last fa).1 on⟩
  · rintro ⟨c, fa, presents, next⟩
    simp only [State.runGoesOn, presented_of_presents presents]
    exact (followsRun_iff last fa).2 next

theorem runGoesOn_false_iff (s : State) (last : Addr) :
    s.runGoesOn last = false ↔ ∀ c fa, s.presents c fa → fa.toNat ≠ last.toNat + 1 := by
  rw [← Bool.not_eq_true, runGoesOn_iff]
  simp only [not_exists, not_and, ne_eq]

/-- FSEL is high on a free port and where the run has ended before the word presented. -/
theorem fsel_iff (s : State) : s.fsel = true ↔ s.fsp.port = .free ∨ ∃ last, s.fsp.port = .nearRun last ∧
    ∀ c fa, s.presents c fa → fa.toNat ≠ last.toNat + 1 := by
  simp only [← runGoesOn_false_iff]
  unfold State.fsel
  cases s.fsp.port <;> simp

theorem runGoesOn_presents {s : State} {c : NearCycle} {fa : Addr} (h : s.presents c fa) (last : Addr) :
    s.runGoesOn last = decide (fa.toNat = last.toNat + 1) := by
  rw [State.runGoesOn, presented_of_presents h]
  rfl

theorem runGoesOn_idle {s : State} (near : s.nsi.near = none) (last : Addr) : s.runGoesOn last = false := by
  simp [State.runGoesOn, State.presented, near]

/-- The near side after a transferred word: the cycle gone on or ended, and a read's data (R156, R159). -/
def State.goneOn (s : State) (c : NearCycle) (data : Word) : State :=
  { s with
    nsi.near :=
      if s.cycleLength c ≤ c.pos + 1 then none else s.nsi.near.map (fun n => { n with pos := c.pos + 1, data := none })
    nsi.dataOut := if c.dir = .read then data else s.nsi.dataOut }

theorem transferred_goneOn (s : State) (c : NearCycle) (fa : Addr) (v : Word) :
    s.transferred c fa v =
      { s.goneOn c v with fsp.port := if (s.goneOn c v).runGoesOn fa then .nearRun fa else .free } := by
  have follows : (s.goneOn c v).runGoesOn fa =
      match (s.goneOn c v).presented with | some next => decide (next.toNat = fa.toNat + 1) | none => false := by
    rw [State.runGoesOn]
    cases (s.goneOn c v).presented <;> rfl
  rw [follows]
  rfl

/-- A transfer leaves FSEL high exactly on a free port: a run that stands open goes on. -/
theorem transferred_fsel (s : State) (c : NearCycle) (fa : Addr) (v : Word) :
    (s.transferred c fa v).fsel = true ↔ (s.transferred c fa v).fsp.port = .free := by
  rw [transferred_goneOn]
  cases runs : (s.goneOn c v).runGoesOn fa with
  | false => exact ⟨fun _ => rfl, fun _ => rfl⟩
  | true =>
    have low : ({ s.goneOn c v with fsp.port := .nearRun fa } : State).fsel = false := congrArg (!·) runs
    exact ⟨fun high => absurd (low.symm.trans high) Bool.false_ne_true, nofun⟩

/-! ### A word in CONFIG -/

section
variable {s : State} {c : NearCycle} (config : s.pcf.part = .config) (near : s.nsi.near = some c) (cfgn : c.cfgn = true)
  (dead : c.dead = false)
include config near cfgn dead

/-- In CONFIG the word presented passes at its own address (R6, R161). -/
theorem presents_config : s.presents c (s.wordAddr c c.pos) :=
  ⟨near, cfgn, dead, congrArg (Treatment.farAddr · _) (treatment_unclassified _ (.inl config))⟩

/-- In CONFIG the run goes on with the next word of the cycle where that is the next address up. -/
theorem goneOn_runGoesOn_config (v : Word) (fa : Addr) : (s.goneOn c v).runGoesOn fa = true ↔
    c.pos + 1 < s.cycleLength c ∧ (s.wordAddr c (c.pos + 1)).toNat = fa.toNat + 1 := by
  by_cases last : s.cycleLength c ≤ c.pos + 1
  · rw [runGoesOn_idle (if_pos last)]
    exact ⟨nofun, fun h => absurd h.1 (Nat.not_lt.2 last)⟩
  · have next : (s.goneOn c v).nsi.near = some { c with pos := c.pos + 1, data := none } :=
      (if_neg last).trans (by rw [near]; rfl)
    rw [runGoesOn_presents (presents_config (s := s.goneOn c v) config next cfgn dead), decide_eq_true_iff]
    exact ⟨fun h => ⟨Nat.not_le.1 last, h⟩, fun h => h.2⟩

/-- In CONFIG no part work and no owner stands between a word and the idle port: it is granted and transfers. -/
theorem nearWord_config (v : Word) (port : s.fsp.port = .free) :
    nearWord s v false =
      ({ s with fsp.streak := 0, fsp.holdTimer := 0, fsp.pins := s.nearPins c (s.wordAddr c c.pos) v } : State).transferred
        c (s.wordAddr c c.pos) v := by
  have wins : ({ s with fsp.port := .free } : State).nearWins = true := (nearWins_iff _).2 (by simp [config])
  have charged : chargeNear { s with fsp.port := .free } = { s with fsp.streak := 0 } := by
    rw [chargeNear_eq]
    simp [config, ← port]
  have taken : ({ s with fsp.streak := 0 } : State).wordTaken c (s.wordAddr c c.pos) v =
      { s with fsp.streak := 0, fsp.holdTimer := 0, fsp.pins := s.nearPins c (s.wordAddr c c.pos) v } :=
    takeWord_inactive _ c _ v (.inl (by simp [config]))
  rw [nearWord_opens v false (presents_config config near cfgn dead) (.inl port), if_pos wins, charged, ← taken]
  exact grantWord_transferred (s := { s with fsp.streak := 0 }) _ v near

end

/-- Settles O7: the word is granted and transfers (`nearWord_config`), no work follows in CONFIG, and its run stands open by
`goneOn_runGoesOn_config`. -/
theorem configPassesNearWords : Obligations.ConfigPassesNearWords := by
  intro s c v rstn config near cfgn dead port
  have run : exec (.nearWordGrant v false) s = .next (nearWord s v false).timersInLine := by
    rw [exec_nearWordGrant rstn rfl, nearWord_config config near cfgn dead v port,
      settleWork_rest _ (workStep_inactive _ (by simp [State.transferred, config])), syncTimers_inLine]
  rw [run, nearWord_config config near cfgn dead v port]
  refine ⟨_, rfl, rfl, rfl, rfl, fun write => ⟨if_pos write, if_neg (by simp [write])⟩, fun read => if_pos read, ?_, ?_,
    transferred_fsel _ c _ v, rfl, rfl, rfl, rfl, rfl, rfl, rfl, rfl, rfl, rfl, rfl⟩
  · show (if s.cycleLength c ≤ c.pos + 1 then none else s.nsi.near.map _) = _
    rw [near]
    rfl
  · rw [transferred_goneOn]
    refine ite_congr (propext ?_) (fun _ => rfl) (fun _ => rfl)
    exact goneOn_runGoesOn_config (s := { s with fsp.streak := 0, fsp.holdTimer := 0, fsp.pins := _ }) config near cfgn
      dead v _

/-! ### What waits for the far port, and when it is open (R162, R165) -/

theorem shortWaits_iff (s : State) :
    s.shortWaits = true ↔ (s.pcf.part = .starting ∨ s.pcf.part = .active) ∧ s.fsp.list ≠ [] := by
  simp [State.shortWaits]

theorem copyWaits_iff (s : State) : s.copyWaits = true ↔ s.pcf.part = .active ∧ s.fsp.copyReq ≠ none := by
  simp [State.copyWaits, Option.isSome_iff_ne_none]

theorem reissueWaits_iff (s : State) :
    s.reissueWaits = true ↔ (s.pcf.part = .starting ∨ s.pcf.part = .active) ∧ s.fsp.reissue ≠ none := by
  simp [State.reissueWaits, Option.isSome_iff_ne_none]

theorem portFree_open {s : State} (opens : s.fsp.port = .free ∨ (∃ w, s.fsp.port = .nearOrphan w) ∨
    ((∃ last, s.fsp.port = .nearRun last) ∧ ∀ c fa, s.presents c fa → ¬ s.runContinues fa)) : s.portFree = true := by
  rcases opens with port | ⟨w, port⟩ | ⟨⟨last, port⟩, ended⟩
  · simp [State.portFree, port]
  · simp [State.portFree, port]
  · have off : s.runGoesOn last = false :=
      (runGoesOn_false_iff s last).2 fun c fa h next => ended c fa h ⟨last, port, next⟩
    simp [State.portFree, port, off]

theorem portFree_inUse {s : State} (inUse : (∃ w, s.fsp.port = .nearHeld w) ∨ (∃ a, s.fsp.port = .part a) ∨
    ∃ c fa, s.presents c fa ∧ s.runContinues fa) : s.portFree = false := by
  rcases inUse with ⟨w, port⟩ | ⟨a, port⟩ | ⟨c, fa, presents, last, port, next⟩
  · simp [State.portFree, port]
  · simp [State.portFree, port]
  · have on : s.runGoesOn last = true := (runGoesOn_iff s last).2 ⟨c, fa, presents, next⟩
    simp [State.portFree, port, on]

/-! ### The lines of R165's table -/

theorem grantPort_inUse {s : State} (inUse : s.portFree = false) : grantPort s = s := if_neg (Bool.eq_false_iff.mp inUse)

section
variable {s : State} (opens : s.portFree = true)
include opens

theorem grantPort_reissue {a : Access} (due : s.reissueWaits = true) (reissue : s.fsp.reissue = some a) :
    grantPort s = ({ s with fsp.reissue := none } : State).grantedTo a := by
  have due : ({ s with fsp.port := .free } : State).reissueWaits = true := due
  rw [grantPort, if_pos opens]
  dsimp only at due ⊢
  rw [due]
  simp only [reissue]
  rfl

/-- With no reissue due, a near run that is ready and wins goes before the part's work. -/
theorem grantPort_arbitrated (quiet : ¬ s.reissueWaits = true) :
    grantPort s = if s.nearReady = true ∧ s.nearWins = true then settleWork (grantNear { s with fsp.port := .free })
      else grantWork { s with fsp.port := .free } := by
  rw [grantPort, if_pos opens]
  dsimp only
  split
  · rename_i due
    exact absurd due quiet
  · rfl

end

/-- A near run that wins is below the limit of the streak wherever the grant counts. -/
theorem chargeNear_wins {s : State} (wins : s.nearWins = true) : chargeNear s =
    { s with
      fsp.streak :=
        if ((s.pcf.part = .starting ∨ s.pcf.part = .active) ∧ s.fsp.list ≠ []) ∨
            (s.pcf.part = .active ∧ s.fsp.copyReq ≠ none)
        then s.fsp.streak + 1
        else 0 } := by
  rw [chargeNear_eq]
  obtain ⟨-, idle | room⟩ := (nearWins_iff s).1 wins
  · rw [if_neg (not_or.2 idle), if_neg (not_or.2 idle)]
  · rw [if_pos room]

/-- The word that waits is granted, taken and left in transfer (R159, log 8). -/
theorem grantNear_presents {s : State} {c : NearCycle} {fa : Addr} (h : s.presents c fa) :
    grantNear s = { (chargeNear s).wordTaken c fa (c.data.getD 0) with fsp.port := .nearHeld ⟨fa, c.dir, c.tag⟩ } := by
  unfold grantNear
  simp only [h.1, presented_of_presents h]
  exact grantWord_held (chargeNear s) c fa _

theorem grantWork_short {s : State} {a : Access} {rest : List Access} (waits : s.shortWaits = true)
    (list : s.fsp.list = a :: rest) : grantWork s = ({ s with fsp.list := rest } : State).grantedTo a := by
  unfold grantWork
  simp only [list, waits, if_true]
  rfl

/-- The copy request is granted where no short write waits: in ACTIVE the short-write list is empty then. -/
theorem grantWork_copy {s : State} {a : Access} (quiet : ¬ s.shortWaits = true) (waits : s.copyWaits = true)
    (copy : s.fsp.copyReq = some a) : grantWork s = ({ s with fsp.copyReq := none } : State).grantedTo a := by
  have list : s.fsp.list = [] := Classical.byContradiction fun full =>
    quiet ((shortWaits_iff s).2 ⟨.inr ((copyWaits_iff s).1 waits).1, full⟩)
  unfold grantWork
  simp only [list, copy, waits, if_true]
  rfl

theorem grantWork_none {s : State} (short : ¬ s.shortWaits = true) (copy : ¬ s.copyWaits = true) : grantWork s = s := by
  unfold grantWork
  split
  · exact if_neg short
  · split
    · exact if_neg copy
    · rfl

/-! ### FAR_GRANT -/

theorem exec_farGrant {s t : State} (rstn : s.rstn = true) (h : grantPort s = t) :
    exec .farGrant s = .next (syncStreak t) := by
  subst h
  exact congrArg Host.Outcome.next (if_pos rstn)

theorem syncStreak_of_zero {s : State} (h : s.fsp.streak = 0) : syncStreak s = s := by
  unfold syncStreak
  rw [← h]
  exact ite_self s

theorem syncStreak_syncStreak (s : State) : syncStreak (syncStreak s) = syncStreak s := by
  by_cases waits : s.partWaits = true
  · have kept : syncStreak s = s := if_pos waits
    rw [kept, kept]
  · have cleared : syncStreak s = { s with fsp.streak := 0 } := if_neg waits
    rw [cleared]
    exact syncStreak_of_zero rfl

/-- The zero-time work leaves the near streak in line. -/
theorem syncStreak_settleWork (s : State) : syncStreak (settleWork s) = settleWork s := syncStreak_syncStreak _

/-- A grant to a far cycle of the part leaves the near streak in line: it is 0. -/
theorem exec_farGrant_part {s t : State} {a : Access} (rstn : s.rstn = true) (h : grantPort s = t.grantedTo a) :
    exec .farGrant s = .next (t.grantedTo a) :=
  (exec_farGrant rstn h).trans (congrArg Host.Outcome.next (syncStreak_of_zero rfl))

/-- Settles O34: a port in use or free for a grant (`portFree_inUse`, `portFree_open`), the lines of R165's table in their
order at a free one, and FSEL (`fsel_iff`). -/
theorem farGrantTable : Obligations.FarGrantTable := by
  intro s short copy reissue near inUse opens
  have isShort : s.shortWaits = true ↔ short := shortWaits_iff s
  have isCopy : s.copyWaits = true ↔ copy := copyWaits_iff s
  have isReissue : s.reissueWaits = true ↔ reissue := reissueWaits_iff s
  have wins : ¬ reissue → (s.nearReady = true ∧ s.nearWins = true ↔ near) := by
    intro quiet
    rw [nearReady_iff, nearWins_iff]
    exact and_congr_right' (and_iff_right quiet)
  refine ⟨fun low => congrArg Host.Outcome.next (if_neg (Bool.eq_false_iff.mp low)), fun rstn used => ?_,
    fun rstn opening => ?_, fsel_iff s⟩
  · refine ⟨_, exec_farGrant rstn (grantPort_inUse (portFree_inUse used)), fun waits => if_pos ?_,
      fun noShort noCopy => if_neg ?_⟩
    · exact (partWaits_iff s).2 waits
    · exact fun waits => ((partWaits_iff s).1 waits).elim noShort noCopy
  · have opened : s.portFree = true := portFree_open opening
    have worked : ¬ reissue → ¬ near → grantPort s = grantWork { s with fsp.port := .free } := fun quiet lost => by
      rw [grantPort_arbitrated opened (mt isReissue.1 quiet), if_neg (mt (wins quiet).1 lost)]
    refine ⟨fun a due waiting => ?_, fun quiet won c fa presents => ?_, fun a rest quiet lost waits list => ?_,
      fun a quiet lost noShort waits request => ?_, fun quiet lost noShort noCopy => ?_⟩
    · exact exec_farGrant_part rstn (grantPort_reissue opened (isReissue.2 due) waiting)
    · obtain ⟨ready, first⟩ := (wins quiet).2 won
      have granted : grantPort s = settleWork (grantNear { s with fsp.port := .free }) := by
        rw [grantPort_arbitrated opened (mt isReissue.1 quiet), if_pos ⟨ready, first⟩]
      rw [exec_farGrant rstn granted, syncStreak_settleWork,
        grantNear_presents (s := { s with fsp.port := .free }) presents,
        chargeNear_wins (s := { s with fsp.port := .free }) first]
    · exact exec_farGrant_part rstn ((worked quiet lost).trans (grantWork_short (isShort.2 waits) list))
    · exact exec_farGrant_part rstn
        ((worked quiet lost).trans (grantWork_copy (mt isShort.1 noShort) (isCopy.2 waits) request))
    · have idle := (worked quiet lost).trans (grantWork_none (mt isShort.1 noShort) (mt isCopy.1 noCopy))
      refine (exec_farGrant rstn idle).trans (congrArg Host.Outcome.next (if_neg ?_))
      exact fun waits => ((partWaits_iff s).1 waits).elim noShort noCopy

end Sys2Proof.Machine

/-! SUPPORT. Setting cycles that are refused or not taken: the tests of R176 on a write in their order, a burst made with CFGN
low (R174), and the settle (R186). -/

namespace Sys2Proof.Machine

/-! ### The tests of a write (R176) -/

theorem configOnly_iff (g i : Nat) : configOnly g i = true ↔ g = 0 ∨ g = 1 ∨ (g = 5 ∧ i = 6) := by
  simp [configOnly, or_assoc]

theorem commandInRange_false_iff (i v : Nat) :
    commandInRange i v = false ↔ (i = 3 ∧ 3 ≤ v) ∨ (i = 5 ∧ 2 ≤ v) ∨ (i = 10 ∧ 128 ≤ v) := by
  unfold commandInRange
  split
  case h_4 no3 no5 no10 =>
    exact iff_of_false (by decide) fun outside => outside.elim (no3 ·.1) (Or.elim · (no5 ·.1) (no10 ·.1))
  all_goals simp [Nat.lt_iff_add_one_le]

theorem classOneForbids_iff (g i x : Nat) (v : Word) : classOneForbids g i x v.toNat = true ↔
    g = 2 ∧ x = 1 ∧ ((i ≤ 3 ∧ (v = 1 ∨ v = 2)) ∨ (i = 6 ∧ v = 1)) := by
  simp [classOneForbids, and_assoc, BitVec.toNat_eq]

section
variable {s : State} {addr : Addr} {v : Word}

theorem judgeWrite_otherTag {tag : Tag} (other : tag ≠ .supervisor) : judgeWrite s tag addr v = some .guard := if_pos other

/-- The tests of a supervisor's write in their order, in the words of R173, R178 and R180. -/
theorem judgeWrite_supervisor : judgeWrite s .supervisor addr v =
    let g := (settingGroup addr).toNat
    let i := (settingItem addr).toNat
    let x := (settingIndex addr).toNat
    if ¬ definedWrite g i x then some .unknown
    else if (g = 0 ∨ g = 1 ∨ (g = 5 ∧ i = 6)) ∧ s.pcf.part ≠ .config then some .state
    else if g = 6 ∧ ((i = 3 ∧ 3 ≤ v.toNat) ∨ (i = 5 ∧ 2 ≤ v.toNat) ∨ (i = 10 ∧ 128 ≤ v.toNat)) then some .unknown
    else if g = 2 ∧ x = 1 ∧ ((i ≤ 3 ∧ (v = 1 ∨ v = 2)) ∨ (i = 6 ∧ v = 1)) then some .guard
    else none := by
  unfold judgeWrite
  rw [if_neg (not_not_intro rfl)]
  simp only [← writeDefined_iff, ← configOnly_iff, ← commandInRange_false_iff, ← classOneForbids_iff, Bool.not_eq_true]

end

/-! ### A setting write is a write cycle -/

/-- Every command that writes a setting is the write cycle of its address. -/
theorem exec_write {c : Instr} {tag : Tag} {addr : Addr} {v : Word} (h : writeOf c = some (tag, addr, v)) :
    ∃ owner take, ∀ s, exec c s = .next (writeCycle s tag addr v owner take) := by
  cases c with
  | capSetting cap t x w =>
    cases cap <;>
    · cases h
      exact ⟨_, _, fun _ => rfl⟩
  | settingWrite | standbyPolicySetting | poolCeilingSetting | meterPreset | start | halt | reconfigure | forcePath
  | failbackNow | failbackMode | radioRestart | periodRestart | clearAlerts | clearFaults | alertEnable =>
    cases h
    exact ⟨_, _, fun _ => rfl⟩
  | _ => cases h

/-- A setting write that fails a test of the decoder is refused with that test's cause. -/
theorem exec_write_refused {c : Instr} {tag : Tag} {addr : Addr} {v : Word} {s : State} {cause : RefusalCause}
    (h : writeOf c = some (tag, addr, v)) (judges : s.judges .write tag addr)
    (judged : judgeWrite { s with nsi.near := none } tag addr v = some cause) :
    exec c s = .next (s.refusedWith cause tag addr .write) := by
  obtain ⟨owner, take, run⟩ := exec_write h
  rw [run, writeCycle_judged s tag addr v owner take cause judges judged]

/-- Settles O17: `judgeWrite_otherTag` for the tag, then the tests of `judgeWrite_supervisor` in their order. -/
theorem writeRefusalOrder : Obligations.WriteRefusalOrder := by
  intro c tag addr v s h judges g i x
  have refused : ∀ cause, judgeWrite { s with nsi.near := none } tag addr v = some cause →
      exec c s = .next (s.refusedWith cause tag addr .write) := fun _ => exec_write_refused h judges
  refine ⟨fun other => refused _ (judgeWrite_otherTag other), ?_, ?_, ?_, ?_⟩
  all_goals
    rintro rfl
    rw [judgeWrite_supervisor] at refused
  · exact fun undefined => refused _ (if_pos undefined)
  · intro d config part
    exact refused _ ((if_neg (not_not_intro d)).trans (if_pos ⟨config, part⟩))
  · intro command outside
    have d : definedWrite g i x := by omega
    have anyState : ¬ ((g = 0 ∨ g = 1 ∨ (g = 5 ∧ i = 6)) ∧ s.pcf.part ≠ .config) := by omega
    exact refused _ ((if_neg (not_not_intro d)).trans ((if_neg anyState).trans (if_pos ⟨command, outside⟩)))
  · intro policy classOne forbidden
    have d : definedWrite g i x := by omega
    have anyState : ¬ ((g = 0 ∨ g = 1 ∨ (g = 5 ∧ i = 6)) ∧ s.pcf.part ≠ .config) := by omega
    have noCommand : ¬ (g = 6 ∧ ((i = 3 ∧ 3 ≤ v.toNat) ∨ (i = 5 ∧ 2 ≤ v.toNat) ∨ (i = 10 ∧ 128 ≤ v.toNat))) := by omega
    exact refused _ ((if_neg (not_not_intro d)).trans ((if_neg anyState).trans ((if_neg noCommand).trans
      (if_pos ⟨policy, classOne, forbidden⟩))))

/-! ### Which setting cycle can complete (R172, log 1) -/

theorem cycleFits_idle {s : State} (rstn : s.rstn = true) (near : s.nsi.near = none) (dir : Dir) (burst : Bool) (tag : Tag)
    (addr : Addr) : s.cycleFits dir burst tag addr = true := by
  simp [State.cycleFits, rstn, near]

theorem cycleFits_latched {s : State} {c : NearCycle} (rstn : s.rstn = true) (near : s.nsi.near = some c)
    (cfgn : c.cfgn = false) : s.cycleFits c.dir c.burst c.tag c.addr = true := by
  simp [State.cycleFits, rstn, near, cfgn, sameSetting]

/-! ### A burst made with CFGN low (R174) -/

theorem burstCycle_refused {s : State} {tag : Tag} {addr : Addr} {dir : Dir} (fits : s.cycleFits dir true tag addr = true)
    (settle : s.settle = none) : burstCycle s tag addr dir = s.refusedWith .burst tag addr dir := by
  have settled : s.settle.isSome = false := by rw [settle]; rfl
  rw [← refuse_effect s .burst tag addr dir]
  unfold burstCycle
  simp only [fits, settled, if_true, Bool.false_eq_true, if_false]

/-- Settles O21: the burst completes whether the interface is idle or has latched it, and `burstCycle_refused` says what it
does. -/
theorem settingBurstIsRefused : Obligations.SettingBurstIsRefused := by
  intro s tag addr dir rstn settle near
  suffices fits : s.cycleFits dir true tag addr = true from congrArg _ (burstCycle_refused fits settle)
  rcases near with idle | ⟨c, latched, cfgn, burst, rfl, rfl, rfl⟩
  · exact cycleFits_idle rstn idle dir true tag addr
  · exact burst ▸ cycleFits_latched rstn latched cfgn

/-! ### The settle (R186) -/

/-- The end of the near cycle changes nothing at an idle interface. -/
theorem ended_idle {s : State} (near : s.nsi.near = none) : { s with nsi.near := none } = s := by rw [← near]

section
variable {s : State} (rstn : s.rstn = true) (settle : s.settle ≠ none) (near : s.nsi.near = none)
include rstn settle near

theorem writeCycle_settling (tag : Tag) (addr : Addr) (v : Word) (owner : State → Option RefusalCause)
    (take : State → State) : writeCycle s tag addr v owner take = s := by
  unfold writeCycle
  simp only [cycleFits_idle rstn near, if_true, ended_idle near, Option.isSome_iff_ne_none.mpr settle]

theorem readCycle_settling (tag : Tag) (addr : Addr) : readCycle s tag addr = { s with nsi.dataOut := 0 } := by
  unfold readCycle
  simp only [cycleFits_idle rstn near, if_true, ended_idle near, near, Option.isSome_iff_ne_none.mpr settle]

theorem burstCycle_settling (tag : Tag) (addr : Addr) (dir : Dir) :
    burstCycle s tag addr dir = if dir = .read then { s with nsi.dataOut := 0 } else s := by
  unfold burstCycle
  simp only [cycleFits_idle rstn near, if_true, ended_idle near, near, Option.isSome_iff_ne_none.mpr settle]

end

/-- Settles O22: setting writes, reads and bursts are the three cycles (`exec_write`, `exec_read`), and none is judged during
the settle. -/
theorem settleAnswersNothing : Obligations.SettleAnswersNothing := by
  intro s rstn settle near
  refine ⟨fun c ⟨tag, addr, v⟩ h => ?_, fun c ⟨tag, addr⟩ h => ?_, fun tag addr => ⟨?_, ?_⟩⟩
  · obtain ⟨owner, take, run⟩ := exec_write h
    rw [run, writeCycle_settling rstn settle near]
  · rw [exec_read s h, readCycle_settling rstn settle near]
  · exact congrArg _ (burstCycle_settling rstn settle near tag addr .write)
  · exact congrArg _ (burstCycle_settling rstn settle near tag addr .read)

end Sys2Proof.Machine

/-! SUPPORT. The part's alerts and faults (R191, R194, R195), the ladder of its far cycles at the hold limit (R192) with the
entry into HALTED, and the step on an empty queue (R196). -/

namespace Sys2Proof.Machine

/-- A fault is taken with the class of its cause. -/
theorem takeFault_class {cause : FaultCause} {cls : FaultClass} (h : causeClass cause = cls) (s : State) (p : Option Path)
    (i : Option Nat) : takeFault s cause p i = s.faulted cls cause p i :=
  h ▸ takeFault_faulted s cause p i

/-! ### The entry into HALTED (R137, R189, R193) -/

/-- The state as the entry into HALTED stops it, before its service path becomes NONE. -/
def State.halting (s : State) : State :=
  { s with
    pcf.part := .halted, swc.state := .steady, swc.target := none, swc.kind := none, swc.step := none, swc.wait := none,
    swc.expired := false, ple.claim := .none, ple.scan := none }

theorem enterHalted_halting (s : State) : enterHalted s = (setService s.halting none).timersInLine := syncTimers_inLine _

/-- What the entry into HALTED changes: the part state, the switch, the engine's claim and scan, the path monitor and the near
streak (R137, R189). -/
theorem enterHalted_frame (s : State) :
    enterHalted s =
      { s with
        pcf.part := .halted, ple.claim := .none, ple.scan := none, swc := (enterHalted s).swc, pmn := (enterHalted s).pmn,
        fsp.streak := (enterHalted s).fsp.streak } ∧
      (enterHalted s).swc.service = none ∧ (enterHalted s).swc.state = .steady := by
  obtain ⟨frame, -, service⟩ := setService_frame s.halting none
  rw [enterHalted_halting]
  refine ⟨?_, (congrArg Swc.service service).trans rfl, (congrArg Swc.state service).trans rfl⟩
  rw [frame]
  rfl

/-- An INTEGRITY fault that stops the part. -/
theorem takeIntegrity_running {s : State} (running : s.pcf.part = .active ∨ s.pcf.part = .starting) (cause : FaultCause)
    (p : Option Path) (i : Option Nat) : takeIntegrity s cause p i = enterHalted (takeFault s cause p i) := by
  unfold takeIntegrity
  rcases running with part | part <;> rw [part]

/-- An INTEGRITY fault in CONFIG or HALTED is recorded only. -/
theorem takeIntegrity_stopped {s : State} (stopped : ¬ (s.pcf.part = .active ∨ s.pcf.part = .starting)) (cause : FaultCause)
    (p : Option Path) (i : Option Nat) : takeIntegrity s cause p i = takeFault s cause p i := by
  unfold takeIntegrity
  cases part : s.pcf.part with
  | active => exact absurd (.inl part) stopped
  | starting => exact absurd (.inr part) stopped
  | config | halted => rfl

/-! ### A part access at the far hold limit (R169, R170, R192) -/

section
variable {s : State} {a : Access}

theorem partTimeout_migrating (migrating : s.swc.state = .migrating) :
    partTimeout s a = takeIntegrity s .timeoutInSwitch a.path a.slot := if_pos migrating

theorem partTimeout_again (steady : s.swc.state ≠ .migrating) (again : a.again = true) :
    partTimeout s a = takeIntegrity s .farTimeoutRepeated a.path a.slot := (if_neg steady).trans (if_pos again)

/-- A first attempt is marked for a reissue, unless RECONFIGURE has cut it off (R190). -/
theorem partTimeout_first (steady : s.swc.state ≠ .migrating) (first : a.again = false) : partTimeout s a =
    if a.void then s.faulted .transfer .farTimeout a.path a.slot
    else { s.faulted .transfer .farTimeout a.path a.slot with fsp.reissue := some { a with again := true } } := by
  rw [← takeFault_class (cause := .farTimeout) (cls := .transfer) rfl]
  exact (if_neg steady).trans (if_neg (Bool.eq_false_iff.mp first))

/-- The far cycle of a part access ends at the limit, and the ladder says what follows (R167). -/
theorem exec_farHoldLimit_part (port : s.fsp.port = .part a) :
    exec .farHoldLimit s = .next (partTimeout { s with fsp.port := .free, fsp.holdTimer := 256 } a) := by
  refine congrArg Host.Outcome.next ?_
  rw [holdLimit, port]
  rfl

end

/-- Settles O36: each rung is a branch of `partTimeout`; the two INTEGRITY rungs share one argument, by whether the part state
is one the fault stops (`enterHalted_frame`) or not. -/
theorem partAccessLadder : Obligations.PartAccessLadder := by
  intro s a port ended stopped
  have integrity (cause : FaultCause) (cls : causeClass cause = .integrity) :
      stopped (s.faulted .integrity cause a.path a.slot) (takeIntegrity ended cause a.path a.slot) := by
    have recorded : takeFault ended cause a.path a.slot = ended.faulted .integrity cause a.path a.slot :=
      takeFault_class cls ended a.path a.slot
    by_cases running : s.pcf.part = .active ∨ s.pcf.part = .starting
    · obtain ⟨frame, service, steady⟩ := enterHalted_frame (ended.faulted .integrity cause a.path a.slot)
      rw [takeIntegrity_running (s := ended) running, recorded]
      refine ⟨?_, ?_, ?_, ?_, ?_, ?_, ?_, ?_, ?_, fun _ => ⟨service, steady⟩⟩ <;> rw [frame]
      · rw [if_pos running]
        rfl
      all_goals rfl
    · rw [takeIntegrity_stopped (s := ended) running, recorded]
      refine ⟨?_, rfl, rfl, rfl, rfl, rfl, rfl, rfl, rfl, fun h => absurd h running⟩
      rw [if_neg running]
      rfl
  rw [exec_farHoldLimit_part port]
  refine ⟨fun steady first => congrArg _ (partTimeout_first steady first), fun steady again => ?_, fun migrating => ?_⟩
  · rw [partTimeout_again (s := ended) steady again]
    exact ⟨_, rfl, integrity .farTimeoutRepeated rfl⟩
  · rw [partTimeout_migrating (s := ended) migrating]
    exact ⟨_, rfl, integrity .timeoutInSwitch rfl⟩

/-! ### Setting cycles on an idle interface -/

section
variable {s : State} {x : BitVec 8} (rstn : s.rstn = true) (settle : s.settle = none)
  (near : s.nsi.near = none) {v : Word}
include rstn settle near

/-- A command that no owner refuses is taken on an idle interface (R181). -/
theorem idleCommand_taken (item : BitVec 4) (take : State → State) (known : item.toNat ≤ 10)
    (range : commandInRange item.toNat v.toNat = true) :
    writeCycle s .supervisor (settingAddr 6 item x) v noRefusal take = take s := by
  rw [commandCycle_taken ⟨cycleFits_idle rstn near _ _ _ _, settle⟩ known range take rfl, ended_idle near]

/-- The read of the pending item latches the seen set and answers the pending set (R184). -/
theorem exec_alertPendingRead (y : BitVec 8) : exec (.alertPendingRead .user y) s = .next
    { s with sdc.seen := s.pcf.pending, nsi.dataOut := 0#9 ++ s.pcf.pending } := by
  have word : s.pcf.pending.setWidth 16 = 0#9 ++ s.pcf.pending := BitVec.setWidth_eq_append (by decide)
  rw [← word]
  exact exec_latchingRead (g := 8) (i := 7) (x := y) rstn settle near (.inr rfl) rfl (by simp [definedRead])

end

/-! ### CLEAR_ALERTS (R195) -/

section
variable {w : Nat} (pending seen bit : BitVec w)

/-- A cause raised before a clear was not seen, so the clear keeps it. -/
theorem raise_clear_keeps : (pending ||| bit) &&& ~~~(seen &&& ~~~bit) &&& bit = bit := by
  ext k hk
  simp only [BitVec.getElem_and, BitVec.getElem_or, BitVec.getElem_not]
  cases bit[k] <;> simp

/-- A cause raised after a clear is pending. -/
theorem clear_raise_keeps : (pending &&& ~~~seen ||| bit) &&& bit = bit := by
  ext k hk
  simp only [BitVec.getElem_and, BitVec.getElem_or, BitVec.getElem_not]
  cases bit[k] <;> simp

/-- A clear with every pending cause seen leaves none. -/
theorem seen_clear_empties : pending &&& ~~~pending &&& bit = 0 := by
  rw [BitVec.and_not_self]
  exact BitVec.zero_and

end

/-- Settles O32: CLEAR_ALERTS by `idleCommand_taken`, the read by `exec_alertPendingRead`, and the order of raise, read and
clear by the three facts about the sets above. -/
theorem clearAlertsKeepsUnseen : Obligations.ClearAlertsKeepsUnseen := by
  intro s x y v rstn settle near cleared
  refine ⟨congrArg _ (idleCommand_taken rstn settle near 8 takeClearAlerts (by decide) rfl), fun unseen => ?_,
    fun a => ⟨raise_clear_keeps _ _ _, clear_raise_keeps _ _ _⟩,
    fun a => ⟨_, exec_alertPendingRead (s := raiseAlert s a) rstn settle near y, rfl, seen_clear_empties _ _⟩,
    fun a => ⟨_, exec_alertPendingRead rstn settle near y, raise_clear_keeps _ _ _⟩⟩
  have kept : s.pcf.pending &&& ~~~s.sdc.seen = s.pcf.pending := by
    rw [unseen]
    exact BitVec.and_allOnes
  exact congrArg (fun p => { s.pcf with pending := p }) kept

/-! ### Fault classes, CLEAR_FAULTS and ALRT (R180, R191, R194) -/

/-- Two sets of causes share one where they are not disjoint. -/
theorem and_ne_zero_iff {w : Nat} (x y : BitVec w) :
    x &&& y ≠ 0 ↔ ∃ k, k < w ∧ x.getLsbD k = true ∧ y.getLsbD k = true := by
  rw [ne_eq, BitVec.eq_of_getLsbD_eq_iff]
  simp

/-- ALRT with RSTN high. -/
theorem alrt_iff {s : State} (rstn : s.rstn = true) : s.alrt = true ↔
    ∃ k, k < 7 ∧ s.pcf.pending.getLsbD k = true ∧ s.pcf.mask.getLsbD k = true := by
  rw [← and_ne_zero_iff, State.alrt, rstn, Bool.true_and, decide_eq_true_iff]

/-- Settles O33: each list of causes is one class (`takeFault_class`), the two commands are taken by `idleCommand_taken`, and
`alrt_iff` reads the new mask bit by bit. -/
theorem faultRecordsAndAlertLine : Obligations.FaultRecordsAndAlertLine := by
  refine ⟨fun s p i => ⟨fun c listed => ?_, fun c listed => ?_, takeFault_class rfl s p i, fun c listed => ?_⟩,
    fun s x v rstn settle near => ⟨?_, fun range => ?_⟩⟩
  · exact takeFault_class ((by decide : ∀ c ∈ _, causeClass c = .notice) c listed) s p i
  · exact takeFault_class ((by decide : ∀ c ∈ _, causeClass c = .path) c listed) s p i
  · exact takeFault_class ((by decide : ∀ c ∈ _, causeClass c = .integrity) c listed) s p i
  · exact congrArg _ (idleCommand_taken rstn settle near 9 takeClearFaults (by decide) rfl)
  · have inRange : commandInRange 10 v.toNat = true := decide_eq_true range
    have taken := idleCommand_taken (x := x) rstn settle near 10 (takeAlertEnable v) (by decide) inRange
    refine ⟨_, congrArg Host.Outcome.next taken, ?_, ?_⟩
    · rw [takeAlertEnable, BitVec.setWidth_eq_extractLsb' (by decide)]
    · rw [alrt_iff (s := takeAlertEnable v s) rstn]
      refine exists_congr fun k => and_congr_right fun hk => and_congr_right fun _ => ?_
      simp [takeAlertEnable, hk]

/-! ### The empty queue (R196, log 4) -/

theorem step_idle {s : State} (empty : s.pending = []) : step s = idleStep s := by
  rw [step, empty]

theorem idleStep_low {s : State} (rstn : s.rstn = false) : idleStep s = .next s := by
  simp [idleStep, rstn]

theorem idleStep_due {s : State} {c : Instr} (rstn : s.rstn = true) (due : s.due = some c) : idleStep s = exec c s := by
  simp [idleStep, rstn, due]

theorem idleStep_tick {s : State} (rstn : s.rstn = true) (due : s.due = none) : idleStep s = .next (tick s) := by
  simp [idleStep, rstn, due]

/-- A REFCLK cycle within a millisecond. -/
theorem clockTick_within {c : Clock} (h : c.sub + 1 < 1024) : c.tick = { c with sub := c.sub + 1 } := if_pos h

/-- The REFCLK cycle that completes a millisecond. -/
theorem clockTick_millisecond {c : Clock} (h : 1024 ≤ c.sub + 1) : c.tick =
    { uptime := c.uptime + 1, sub := 0
      secDue := c.secDue || decide ((c.uptime + 1).toNat % 1000 = 0)
      minDue := c.minDue || decide ((c.uptime + 1).toNat % 60000 = 0) } := if_neg (Nat.not_lt.mpr h)

/-- Settles O2: the three branches of `idleStep`; a cycle's effect on a timer that runs in a debounce state is read off state
by state. -/
theorem emptyQueueRunsClock : Obligations.EmptyQueueRunsClock := by
  intro s empty on record
  rw [step_idle empty]
  refine ⟨due_expiries s, idleStep_low, fun rstn c due => idleStep_due rstn due,
    fun rstn due => ⟨tick s, idleStep_tick rstn due, ?_, clockTick_within, fun h => ?_⟩⟩
  · have paths (r : PathRecord) : r.tick = record r := by
      unfold PathRecord.tick record
      cases r.line <;> rfl
    unfold tick
    rw [paths, paths]
    cases s.umt.mains <;> rfl
  · have ticked : (tick s).clock = s.clock.tick := rfl
    rw [ticked, clockTick_millisecond h]
    exact ⟨rfl, rfl, rfl, rfl⟩

end Sys2Proof.Machine

/-! SUPPORT. The front command, and the end of the zero-time work: what the part must do for work to be left, a measure that
every piece of work lowers, and the fuel above it (R48, R70, R129 to R133, log 18). -/

namespace Sys2Proof.Machine

/-- Settles O1: a queue with a front command is the first branch of `step`. -/
theorem stepRunsFrontCommand : Obligations.StepRunsFrontCommand := by
  intro c rest s front
  rw [step, front]

/-! ### What rest turns on -/

/-- A part at rest has no scan, no mark and nothing queued for the path it serves, and no claim that its migration can go on
with. -/
theorem atRest_iff (s : State) : s.atRest ↔ s.pcf.part = .active → s.ple.op = none →
    (s.ple.claim = .none → ∀ p, s.swc.service = some p →
      s.ple.scan = none ∧ s.ple.rexPending = false ∧ s.ple.placementQ = [] ∧ (p = .fibre → s.ple.deferralQ = [])) ∧
    (s.ple.claim = .pending → ¬ (s.swc.state = .migrating ∧ s.swc.step = none ∧ s.ple.scan = none)) ∧
    (s.ple.claim = .held → ¬ (s.swc.state = .migrating ∧ s.swc.step = none)) := by
  unfold State.atRest workStep
  cases claim : s.ple.claim with
  | none =>
    simp only [engineStep_none_iff, claim, reduceCtorEq, false_implies, and_true, forall_const]
    exact ⟨fun h part op p service => h p part service op, fun h p part service op => h part op p service⟩
  | pending =>
    simp only [reduceCtorEq, false_implies, true_and, and_true, forall_const]
    split
    · rename_i ready
      obtain ⟨part, state, op, step, scan⟩ := ready
      simp [part, state, op, step, scan]
    · rename_i busy
      exact ⟨fun _ part op ready => busy ⟨part, ready.1, op, ready.2⟩, fun _ => rfl⟩
  | held =>
    simp only [reduceCtorEq, false_implies, true_and, forall_const]
    split
    · rename_i ready
      obtain ⟨part, state, op, step⟩ := ready
      cases s.swc.list <;> simp [part, state, op, step]
    · rename_i busy
      exact ⟨fun _ part op ready => busy ⟨part, ready.1, op, ready.2⟩, fun _ => rfl⟩

/-- What the work reads of the switch, the engine and the tables, but for the deferral queue and the switch state. -/
def State.workView (s : State) : (PartState × Nat) × (Option Path × Option Nat × List MigrationItem) ×
    (Claim × Option Operation × Option Scan × Bool × List Nat) :=
  ((s.pcf.part, s.tsm.entries.length), (s.swc.service, s.swc.step, s.swc.list),
    (s.ple.claim, s.ple.op, s.ple.scan, s.ple.rexPending, s.ple.placementQ))

/-- The second state gives the work nothing to do that the first does not. -/
structure Quieter (s t : State) : Prop where
  view : t.workView = s.workView
  queue : s.ple.deferralQ = [] → t.ple.deferralQ = []
  migrating : t.swc.state = .migrating → s.swc.state = .migrating

theorem workView_iff (s t : State) : t.workView = s.workView ↔
    (t.pcf.part = s.pcf.part ∧ t.tsm.entries.length = s.tsm.entries.length) ∧
    (t.swc.service = s.swc.service ∧ t.swc.step = s.swc.step ∧ t.swc.list = s.swc.list) ∧
    (t.ple.claim = s.ple.claim ∧ t.ple.op = s.ple.op ∧ t.ple.scan = s.ple.scan ∧ t.ple.rexPending = s.ple.rexPending ∧
      t.ple.placementQ = s.ple.placementQ) := by
  simp only [State.workView, Prod.mk.injEq]

/-- A change of what the work does not read. -/
theorem Quieter.of_view {s t : State} (view : t.workView = s.workView) (queue : t.ple.deferralQ = s.ple.deferralQ)
    (state : t.swc.state = s.swc.state) : Quieter s t := ⟨view, queue.trans, state.symm.trans⟩

theorem Quieter.refl (s : State) : Quieter s s := ⟨rfl, id, id⟩

theorem Quieter.trans {s t u : State} (h : Quieter s t) (k : Quieter t u) : Quieter s u :=
  ⟨k.view.trans h.view, k.queue ∘ h.queue, h.migrating ∘ k.migrating⟩

theorem Quieter.rest {s t : State} (h : Quieter s t) (rest : s.atRest) : t.atRest := by
  obtain ⟨⟨part, -⟩, ⟨service, step, -⟩, claim, op, scan, rex, placement⟩ := (workView_iff s t).1 h.view
  rw [atRest_iff] at rest ⊢
  rw [part, service, step, claim, op, scan, rex, placement]
  intro active idle
  obtain ⟨unclaimed, pending, held⟩ := rest active idle
  refine ⟨fun free p serves => ?_, fun c ready => pending c ⟨h.migrating ready.1, ready.2⟩,
    fun c ready => held c ⟨h.migrating ready.1, ready.2⟩⟩
  obtain ⟨scanned, marked, placed, deferred⟩ := unclaimed free p serves
  exact ⟨scanned, marked, placed, fun fibre => h.queue (deferred fibre)⟩

/-! ### What a migration's end leads to (R132) -/

/-- How many more migrations the service path lets follow: toward FIBRE none, from RADIO a failback, from NONE an arrival. -/
def serviceRank : Option Path → Nat
  | none => 2
  | some .radio => 1
  | some .fibre => 0

/-- A migration has started that leaves fewer to follow. -/
structure Restarted (s t : State) : Prop where
  claim : t.ple.claim = .pending
  size : t.tsm.entries.length = s.tsm.entries.length
  rank : serviceRank t.swc.service < serviceRank s.swc.service

/-- A restart leaves fewer migrations to follow for every state of the same service path and ring. -/
theorem Restarted.congr {s t u : State} (h : Restarted t u) (service : t.swc.service = s.swc.service)
    (size : t.tsm.entries.length = s.tsm.entries.length) : Restarted s u :=
  ⟨h.claim, h.size.trans size, service ▸ h.rank⟩

theorem startMigration_restarted (s : State) (p : Path) (kind : MigrationKind)
    (rank : serviceRank (some p) < serviceRank s.swc.service) : Restarted s (startMigration s (some p) kind) := by
  obtain ⟨frame, -, -, claim⟩ := startMigration_frame s p kind
  refine ⟨claim, frame.size, ?_⟩
  rw [startMigration_swc]
  exact rank

/-- The trigger starts an arrival or does nothing (R121). -/
theorem arrivalTrigger_cases (s : State) (service : s.swc.service = none) :
    Quieter s (arrivalTrigger s) ∨ Restarted s (arrivalTrigger s) := by
  have starts (p : Path) : Restarted s (startMigration s (some p) .arrival) := by
    apply startMigration_restarted
    rw [service]
    cases p <;> decide
  unfold arrivalTrigger
  split
  · split
    · exact .inr (starts .fibre)
    · split
      · exact .inr (starts .radio)
      · exact .inl (.refl s)
  · exact .inl (.refl s)

/-- The test starts a failback, or leaves the switch waiting or as it is (R122, R123). -/
theorem failbackTest_cases (s : State) (service : s.swc.service = some .radio) :
    Quieter s (failbackTest s) ∨ Restarted s (failbackTest s) := by
  let waits : State := raiseAlert { s with swc.state := .waiting, swc.wait := some 0, swc.expired := false } .failbackHeld
  have waiting : Quieter s waits := ⟨rfl, id, nofun⟩
  have tested : Quieter s (testWait waits) ∨ Restarted s (testWait waits) := by
    unfold testWait
    split
    · have rank : serviceRank (some .fibre) < serviceRank (stopWait waits).swc.service := by
        show _ < serviceRank s.swc.service
        rw [service]
        decide
      exact .inr ((startMigration_restarted _ .fibre .failback rank).congr rfl rfl)
    · exact .inl waiting
  unfold failbackTest
  split
  · split
    · exact .inl (.of_view rfl rfl rfl)
    · split
      · exact tested
      · exact .inl (.refl s)
  · exact .inl (.refl s)

/-- The engine, settled, is at rest where no claim stands. -/
theorem settleEngine_atRest {s : State} (free : s.ple.claim = .none) : (settleEngine s).atRest ∧
    (settleEngine s).ple.claim = .none ∧ (settleEngine s).swc = s.swc ∧
    (settleEngine s).tsm.entries.length = s.tsm.entries.length := by
  obtain ⟨frame, swc, -, -, -, claim⟩ := runEngine_frame s.engineFuel s
  have unclaimed : (settleEngine s).ple.claim = .none := claim.trans free
  refine ⟨?_, unclaimed, swc, frame.size⟩
  unfold State.atRest
  rw [workStep_engine _ unclaimed]
  exact settleEngine_rest s

theorem prompt_unclaimed (s : State) : (prompt s).ple.claim = s.ple.claim ∧ (prompt s).swc = s.swc := by
  unfold prompt
  split
  · split <;> exact ⟨rfl, rfl⟩
  · exact ⟨rfl, rfl⟩

/-- What the triggers make of an engine settled with no claim, once the alert and the counts are taken. -/
theorem rest_or_restarted {s t u : State} (rest : s.atRest) (free : s.ple.claim = .none) (calm : Quieter s t)
    (led : Quieter t u ∨ Restarted t u) : (u.atRest ∧ u.ple.claim = .none) ∨ Restarted s u := by
  obtain ⟨⟨-, size⟩, ⟨service, -⟩, -⟩ := (workView_iff s t).1 calm.view
  refine led.imp (fun calmer => ?_) fun restarted => restarted.congr service size
  have all := calm.trans calmer
  obtain ⟨-, -, claim, -⟩ := (workView_iff s u).1 all.view
  exact ⟨all.rest rest, claim.trans free⟩

/-- A migration ends at rest with the claim released, or another starts. -/
theorem endMigration_cases (s : State) : ((endMigration s).atRest ∧ (endMigration s).ple.claim = .none) ∨
    Restarted s (endMigration s) := by
  have alerted (t : State) : Quieter t (raiseAlert t .switched) := .of_view rfl rfl rfl
  have counted (t : State) : Quieter t
      (match s.swc.kind with
        | some .failover => { t with swc.failovers := satInc 65535 t.swc.failovers }
        | some .failback => { t with swc.failbacks := satInc 65535 t.swc.failbacks }
        | some .arrival => t
        | some .forced => t
        | none => t) := by
    split <;> exact .of_view rfl rfl rfl
  have triggered (t : State) : let u := if t.swc.service = none then arrivalTrigger t
      else if t.swc.service = some .radio then failbackTest t else t
      Quieter t u ∨ Restarted t u := by
    simp only
    split
    · rename_i none
      exact arrivalTrigger_cases t none
    · split
      · rename_i radio
        exact failbackTest_cases t radio
      · exact .inl (.refl t)
  let released : State :=
    { s with swc.state := .steady, swc.target := none, swc.kind := none, swc.step := none, ple.claim := .none }
  obtain ⟨rest, free, swc, size⟩ := settleEngine_atRest (s := released) rfl
  unfold endMigration
  simp only
  by_cases radio : s.swc.target.getD none = some .radio
  · obtain ⟨promptClaim, promptSwc⟩ := prompt_unclaimed (settleEngine released)
    obtain ⟨scanRest, scanFree, scanSwc, scanSize⟩ := settleEngine_atRest (promptClaim.trans free)
    rw [if_pos radio]
    refine (rest_or_restarted scanRest scanFree ((alerted _).trans (counted _)) (triggered _)).imp_right
      fun restarted => restarted.congr ?_ ?_
    · rw [scanSwc, promptSwc, swc]
    · rw [scanSize, (prompt_frame _).size, size]
  · rw [if_neg radio]
    exact (rest_or_restarted rest free ((alerted _).trans (counted _)) (triggered _)).imp_right
      fun restarted => restarted.congr ((congrArg Swc.service swc).trans rfl) size

/-! ### The measure of the work -/

/-- A bound of the pieces of work that follow a grant: its list, its end, and the migrations that may follow, each with its own
grant, list and end. -/
def State.migrationsLeft (s : State) : Nat := serviceRank s.swc.service * (s.tsm.entries.length + 2)

/-- A bound of the pieces of zero-time work left, by the claim: the engine's own steps or the migrations'. -/
def State.workLeft (s : State) : Nat :=
  match s.ple.claim with
  | .none => s.engineMeasure
  | .pending => s.migrationsLeft + s.tsm.entries.length + 2
  | .held => s.migrationsLeft + s.swc.list.length + 1

/-- The measure of the zero-time work: 0 at rest. -/
def State.workMeasure (s : State) : Nat := if s.atRest then 0 else s.workLeft

theorem workMeasure_rest {s : State} (rest : s.atRest) : s.workMeasure = 0 := if_pos rest

theorem workMeasure_busy {s t : State} (work : workStep s = some t) : s.workMeasure = s.workLeft :=
  if_neg (by simp [State.atRest, work])

theorem workMeasure_le_left (s : State) : s.workMeasure ≤ s.workLeft := by
  unfold State.workMeasure
  split
  · exact Nat.zero_le _
  · exact Nat.le_refl _

theorem workLeft_unclaimed {s : State} (claim : s.ple.claim = .none) : s.workLeft = s.engineMeasure := by
  rw [State.workLeft, claim]

theorem workLeft_pending {s : State} (claim : s.ple.claim = .pending) :
    s.workLeft = s.migrationsLeft + s.tsm.entries.length + 2 := by rw [State.workLeft, claim]

theorem workLeft_held {s : State} (claim : s.ple.claim = .held) :
    s.workLeft = s.migrationsLeft + s.swc.list.length + 1 := by rw [State.workLeft, claim]

/-- A migration list is no longer than the ring (R114). -/
theorem migrationList_length (s : State) (target : Option Path) :
    (s.migrationList target).length ≤ s.tsm.entries.length := by
  unfold State.migrationList
  rw [List.length_map]
  refine Nat.le_trans (List.length_filter_le _ _) (Nat.le_of_eq ?_)
  rw [State.slotsInOrder, List.length_map, List.length_range]

/-- A restarted migration has less before it than the one that ended. -/
theorem Restarted.left {s t : State} (h : Restarted s t) : t.workLeft ≤ s.migrationsLeft := by
  rw [workLeft_pending h.claim]
  unfold State.migrationsLeft
  rw [h.size, Nat.add_assoc, ← Nat.succ_mul]
  exact Nat.mul_le_mul_right _ h.rank

theorem examine_kept (s : State) (m : MigrationItem) (rest : List MigrationItem) :
    (examine s m rest).ple.claim = s.ple.claim ∧ (examine s m rest).swc.list = rest ∧
    (examine s m rest).swc.service = s.swc.service := by
  unfold examine
  simp only
  split <;> exact ⟨rfl, rfl, rfl⟩

/-- Every piece of the zero-time work comes nearer its end. -/
theorem workStep_measure (s t : State) (work : workStep s = some t) : t.workMeasure < s.workMeasure := by
  have left := workMeasure_le_left t
  rw [workMeasure_busy work]
  unfold workStep at work
  split at work
  · rename_i claim
    obtain ⟨-, -, -, -, -, kept⟩ := engineStep_frame s t work
    rw [workLeft_unclaimed (kept.trans claim)] at left
    rw [workLeft_unclaimed claim]
    exact Nat.lt_of_le_of_lt left (engineStep_measure s t work)
  · rename_i claim
    split at work
    · injection work with granted
      subst granted
      have fits := migrationList_length s (s.swc.target.getD none)
      have held : (grantClaim s).workLeft = s.migrationsLeft + (s.migrationList (s.swc.target.getD none)).length + 1 := rfl
      rw [workLeft_pending claim]
      omega
    · cases work
  · rename_i claim
    rw [workLeft_held claim]
    split at work
    · split at work
      · rename_i done
        injection work with ended
        subst ended
        rcases endMigration_cases s with ⟨rest, -⟩ | restarted
        · rw [workMeasure_rest rest]
          exact Nat.succ_pos _
        · have fewer := restarted.left
          omega
      · rename_i m rest list
        injection work with examined
        subst examined
        obtain ⟨held, shorter, service⟩ := examine_kept s m rest
        have same : (examine s m rest).migrationsLeft = s.migrationsLeft := by
          rw [State.migrationsLeft, service, (examine_frame s m rest).size, State.migrationsLeft]
        rw [workLeft_held (held.trans claim), same, shorter] at left
        rw [list, List.length_cons]
        omega
    · cases work

/-- Enough fuel brings the work to rest. -/
theorem runWork_atRest (n : Nat) (s : State) (enough : s.workMeasure ≤ n) : (runWork n s).atRest := by
  induction n generalizing s with
  | zero =>
    cases work : workStep s with
    | none => exact work
    | some t => exact absurd (workStep_measure s t work) (by omega)
  | succ n ih =>
    unfold runWork
    split
    · rename_i rest
      exact rest
    · rename_i t work
      have nearer := workStep_measure s t work
      exact ih t (by omega)

theorem serviceRank_le (p : Option Path) : serviceRank p ≤ 2 := by
  rcases p with _ | _ | _ <;> decide

/-- The fuel suffices where the migration list is no longer than the ring (log 18). -/
theorem workMeasure_le (s : State) (short : s.swc.list.length ≤ s.tsm.entries.length) : s.workMeasure ≤ s.workFuel := by
  have most : s.migrationsLeft ≤ 2 * (s.tsm.entries.length + 2) := Nat.mul_le_mul_right _ (serviceRank_le _)
  have left := workMeasure_le_left s
  unfold State.workFuel
  cases claim : s.ple.claim with
  | none =>
    have engine : s.engineMeasure ≤ 2 * s.ple.deferralQ.length + 8 := engineMeasure_le s
    rw [workLeft_unclaimed claim] at left
    omega
  | pending =>
    rw [workLeft_pending claim] at left
    omega
  | held =>
    rw [workLeft_held claim] at left
    omega

end Sys2Proof.Machine

/-! SUPPORT. The migration list stays within the ring, and empty in CONFIG: what every operation of the part does to the list,
the size of the slot map and the part state (R114, R128, R129, R190). -/

namespace Sys2Proof.Machine

/-- The migration list is no longer than the ring, and empty in CONFIG. -/
structure State.Listed (s : State) : Prop where
  short : s.swc.list.length ≤ s.tsm.entries.length
  config : s.pcf.part = .config → s.swc.list = []

/-- The part state, the size of the slot map and the migration list. -/
def State.walk (s : State) : PartState × Nat × List MigrationItem := (s.pcf.part, s.tsm.entries.length, s.swc.list)

theorem walk_iff (s t : State) : t.walk = s.walk ↔
    t.pcf.part = s.pcf.part ∧ t.tsm.entries.length = s.tsm.entries.length ∧ t.swc.list = s.swc.list := by
  simp only [State.walk, Prod.mk.injEq]

theorem State.Listed.congr {s t : State} (h : s.Listed) (same : t.walk = s.walk) : t.Listed := by
  obtain ⟨part, size, list⟩ := (walk_iff s t).1 same
  refine ⟨?_, fun config => ?_⟩
  · rw [list, size]; exact h.short
  · rw [list]; exact h.config (part.symm.trans config)

theorem State.Listed.empty {s : State} (list : s.swc.list = []) : s.Listed :=
  ⟨by rw [list]; exact Nat.zero_le _, fun _ => list⟩

theorem SwitchFrame.part {s t : State} (h : SwitchFrame s t) : t.pcf.part = s.pcf.part := by
  obtain ⟨raised, -, pcf, -⟩ := h.alerts
  rw [pcf]

theorem SwitchFrame.walk {s t : State} (h : SwitchFrame s t) (list : t.swc.list = s.swc.list) : t.walk = s.walk :=
  (walk_iff s t).2 ⟨h.part, h.size, list⟩

/-! ### Entries and the engine's operations -/

theorem setEntry_walk (s : State) (i : Nat) (e : TxEntry) : (setEntry s i e).walk = s.walk :=
  (walk_iff _ _).2 ⟨rfl, List.length_set, rfl⟩

theorem skipEntry_walk (s : State) (i : Nat) (st : Status) : (skipEntry s i st).walk = s.walk :=
  (skipEntry_frame s i st).walk rfl

theorem beginOp_walk (s : State) (i : Nat) (k : OpKind) (p : Path) : (beginOp s i k p).walk = s.walk :=
  (beginOp_frame s i k p).walk rfl

theorem requeue_walk (s : State) (i : Nat) : (requeue s i).walk = s.walk := (requeue_frame s i).1.walk rfl

theorem endOp_walk (s : State) (b : Option Cls) : (endOp s b).walk = s.walk := by
  obtain ⟨frame, -, -, -, -, -, swc⟩ := endOp_frame s b
  exact frame.walk ((congrArg Swc.list swc).trans rfl)

theorem abandonOp_walk (s : State) : (abandonOp s).walk = s.walk := by
  obtain ⟨frame, -, -, -, -, swc⟩ := abandonOp_frame s
  exact frame.walk ((congrArg Swc.list swc).trans rfl)

theorem claimEngine_walk (s : State) : (claimEngine s).walk = s.walk := by
  obtain ⟨frame, -, -, -, -, swc⟩ := claimEngine_frame s
  exact frame.walk ((congrArg Swc.list swc).trans rfl)

theorem prompt_walk (s : State) : (prompt s).walk = s.walk :=
  (prompt_frame s).walk (congrArg Swc.list (prompt_unclaimed s).2)

theorem deferEntry_walk (s : State) (i : Nat) : (deferEntry s i).walk = s.walk := by
  unfold deferEntry
  simp only
  split
  · exact setEntry_walk s i _
  · exact skipEntry_walk s i 10

theorem creditAndRing_walk (s : State) (o : Operation) : (creditAndRing s o).walk = s.walk := by
  unfold creditAndRing
  simp only
  split
  · exact (endOp_walk _ _).trans (deferEntry_walk s o.slot)
  · split
    · exact setEntry_walk s o.slot _
    · split
      · exact abandonOp_walk s
      · rfl

theorem decideOp_walk (s : State) (o : Operation) : (decideOp s o).walk = s.walk := by
  have deferred (b : Option Cls) : (endOp (deferEntry s o.slot) b).walk = s.walk :=
    (endOp_walk _ b).trans (deferEntry_walk s o.slot)
  have skipped (t : State) (h : t.walk = s.walk) : (endOp t none).walk = s.walk := (endOp_walk t none).trans h
  unfold decideOp
  simp only
  split
  · exact creditAndRing_walk s o
  · split
    · exact skipped _ (skipEntry_walk s o.slot 11)
    · split
      · split
        · exact abandonOp_walk s
        · exact deferred _
      · split
        · exact creditAndRing_walk s o
        · exact deferred _
        · exact skipped _ (skipEntry_walk s o.slot 8)

theorem takeRead_walk (s : State) (i : Nat) (d : Descriptor) : (takeRead s i d).walk = s.walk := setEntry_walk s i _

/-! ### The radio power sequencer and the switch controller -/

theorem evalStandby_walk (s : State) : (evalStandby s).walk = s.walk :=
  (congrArg State.walk (evalStandby_frame s).1).trans rfl

theorem setService_walk (s : State) (p : Option Path) : (setService s p).walk = s.walk := by
  obtain ⟨frame, -, swc⟩ := setService_frame s p
  rw [walk_iff]
  exact ⟨by rw [frame], by rw [frame], (congrArg Swc.list swc).trans rfl⟩

theorem startMigration_walk (s : State) (target : Option Path) (kind : MigrationKind) :
    (startMigration s target kind).walk = s.walk := by
  unfold startMigration
  refine (claimEngine_walk _).trans ?_
  split <;> exact (setService_walk _ target).trans rfl

theorem testWait_walk (s : State) : (testWait s).walk = s.walk := by
  unfold testWait
  split
  · exact (startMigration_walk _ _ _).trans rfl
  · rfl

theorem arrivalTrigger_walk (s : State) : (arrivalTrigger s).walk = s.walk := by
  unfold arrivalTrigger
  split
  · split
    · exact startMigration_walk s _ _
    · split
      · exact startMigration_walk s _ _
      · rfl
  · rfl

theorem failbackTest_walk (s : State) : (failbackTest s).walk = s.walk := by
  unfold failbackTest
  split
  · split
    · rfl
    · split
      · exact (testWait_walk _).trans rfl
      · rfl
  · rfl

theorem pathBecameUp_walk (s : State) (p : Path) : (pathBecameUp s p).walk = s.walk := by
  cases p with
  | fibre => exact (failbackTest_walk _).trans (arrivalTrigger_walk s)
  | radio => exact arrivalTrigger_walk s

/-- A path that leaves UP empties the list where its migration restarts, and leaves it alone else (R133). -/
theorem pathLeftUp_listed {s : State} (p : Path) (h : s.Listed) : (pathLeftUp s p).Listed := by
  unfold pathLeftUp
  split
  · split
    · split
      · refine State.Listed.congr ?_ (startMigration_walk _ _ _)
        exact .empty rfl
      · refine State.Listed.congr ?_ (startMigration_walk _ _ _)
        exact h.congr rfl
    · split
      · exact h.congr rfl
      · exact h
  · exact h

/-! ### The zero-time work -/

theorem settleEngine_walk (s : State) : (settleEngine s).walk = s.walk := by
  obtain ⟨frame, swc, -⟩ := runEngine_frame s.engineFuel s
  exact frame.walk (congrArg Swc.list swc)

theorem endMigration_walk (s : State) : (endMigration s).walk = s.walk := by
  have counted (t : State) : State.walk
      (match s.swc.kind with
        | some .failover => { t with swc.failovers := satInc 65535 t.swc.failovers }
        | some .failback => { t with swc.failbacks := satInc 65535 t.swc.failbacks }
        | some .arrival => t
        | some .forced => t
        | none => t) = t.walk := by
    split <;> rfl
  have triggered (t : State) : State.walk (if t.swc.service = none then arrivalTrigger t
      else if t.swc.service = some .radio then failbackTest t else t) = t.walk := by
    split
    · exact arrivalTrigger_walk t
    · split
      · exact failbackTest_walk t
      · rfl
  let released : State :=
    { s with swc.state := .steady, swc.target := none, swc.kind := none, swc.step := none, ple.claim := .none }
  have chosen : (settleEngine released).walk = s.walk := (settleEngine_walk released).trans rfl
  have alerted (t : State) : (raiseAlert t .switched).walk = t.walk := rfl
  unfold endMigration
  refine (triggered _).trans ((counted _).trans ((alerted _).trans ?_))
  split
  · exact (settleEngine_walk _).trans ((prompt_walk _).trans chosen)
  · exact chosen

/-- Work is done in ACTIVE alone. -/
theorem workStep_active {s t : State} (work : workStep s = some t) : s.pcf.part = .active :=
  Decidable.byContradiction fun idle => absurd (work.symm.trans (workStep_inactive s idle)) nofun

/-- Each piece of work keeps the list within the ring: a grant builds it so, and an examination shortens it. -/
theorem workStep_listed {s t : State} (h : s.Listed) (work : workStep s = some t) : t.Listed := by
  have frame := workStep_frame s t work
  have part : t.pcf.part = .active := frame.part.trans (workStep_active work)
  refine ⟨?_, fun config => absurd (part.symm.trans config) nofun⟩
  rw [frame.size]
  unfold workStep at work
  split at work
  · obtain ⟨-, swc, -⟩ := engineStep_frame s t work
    rw [swc]; exact h.short
  · split at work
    · injection work with granted
      subst granted
      exact migrationList_length s _
    · cases work
  · split at work
    · split at work
      · injection work with ended
        subst ended
        obtain ⟨-, -, list⟩ := (walk_iff _ _).1 (endMigration_walk s)
        rw [list]; exact h.short
      · rename_i m rest list
        injection work with examined
        subst examined
        obtain ⟨-, left, -⟩ := examine_kept s m rest
        have short := h.short
        rw [list, List.length_cons] at short
        rw [left]; exact Nat.le_of_succ_le short
    · cases work

theorem runWork_listed (n : Nat) {s : State} (h : s.Listed) : (runWork n s).Listed := by
  induction n generalizing s with
  | zero => exact h
  | succ n ih =>
    unfold runWork
    split
    · exact h
    · rename_i t work
      exact ih (workStep_listed h work)

theorem syncTimers_walk (s : State) : (syncTimers s).walk = s.walk :=
  (congrArg State.walk (syncTimers_inLine s)).trans rfl

theorem settleWork_listed {s : State} (h : s.Listed) : (settleWork s).Listed :=
  (runWork_listed _ h).congr (syncTimers_walk _)

/-! ### The path monitor -/

theorem flapAppend_walk (s : State) : (flapAppend s).walk = s.walk := by
  have limited (full : Prop) [Decidable full] (t : State) (h : t.walk = s.walk) :
      (if full then takeFault { t with swc.mode := .manual } .flapLimit (some .fibre) none else t).walk = s.walk := by
    split <;> exact h
  exact limited _ _ rfl

theorem downEvent_listed {s : State} (p : Path) (cause : DownCause) (h : s.Listed) : (downEvent s p cause).Listed := by
  have reported (up : Bool) (t : State) (same : t.walk = s.walk) : (if up then pathLeftUp t p else t).Listed := by
    split
    · exact pathLeftUp_listed p (h.congr same)
    · exact h.congr same
  unfold downEvent
  apply reported
  cases p with
  | fibre => exact (evalStandby_walk _).trans ((flapAppend_walk _).trans rfl)
  | radio => simp only; split <;> rfl

theorem causeWhileDown_walk (s : State) (p : Path) (cause : DownCause) : (causeWhileDown s p cause).walk = s.walk := by
  unfold causeWhileDown
  simp only
  split <;> rfl

theorem applyCause_listed {s : State} (p : Path) (cause : DownCause) (h : s.Listed) : (applyCause s p cause).Listed := by
  unfold applyCause
  split
  · exact downEvent_listed p cause h
  · exact downEvent_listed p cause h
  · exact h.congr (causeWhileDown_walk s p cause)
  · exact h
  · exact h

theorem terminalIndex_listed {s : State} (p : Path) (h : s.Listed) : (terminalIndex s p).Listed :=
  applyCause_listed p _ (h.congr rfl)

theorem enterTrial_walk (s : State) (p : Path) : (enterTrial s p).walk = s.walk := by
  unfold enterTrial
  simp only
  split <;> rfl

theorem becomeUp_walk (s : State) (p : Path) : (becomeUp s p).walk = s.walk := by
  cases p with
  | fibre => exact (pathBecameUp_walk _ _).trans ((evalStandby_walk _).trans rfl)
  | radio => exact (pathBecameUp_walk _ _).trans rfl

theorem judgeSilence_listed {s : State} (p : Path) (h : s.Listed) : (judgeSilence s p).Listed := by
  unfold judgeSilence
  simp only
  split
  · split
    · exact h.congr rfl
    · split
      · exact downEvent_listed p _ (h.congr rfl)
      · exact h.congr rfl
  · exact h

theorem judgeTrial_walk (s : State) (p : Path) : (judgeTrial s p).walk = s.walk := by
  have tried (n : Nat) : (let s1 := setRec s p { s.pathRec p with trial := n }
      if s.trialLength p ≤ n then becomeUp s1 p else s1).walk = s.walk := by
    simp only
    split
    · exact (becomeUp_walk _ p).trans rfl
    · rfl
  unfold judgeTrial
  simp only
  split
  · exact tried _
  · rfl
  · rfl

theorem judge_listed {s : State} (p : Path) (h : s.Listed) : (judge s p).Listed := by
  unfold judge
  split
  · exact judgeSilence_listed p h
  · exact h.congr (judgeTrial_walk s p)
  · split
    · exact h.congr (enterTrial_walk s p)
    · exact h
  · exact h
  · exact h

theorem heartbeatEnd_listed {s : State} (h : s.Listed) : (heartbeatEnd s).Listed := by
  have restarted (u : State) : ({ clearMark (clearMark u .fibre) .radio with
      pmn.beat := 0
      pmn.beatLen := (clearMark (clearMark u .fibre) .radio).sdc.settings.timing.heartbeat } : State).walk = u.walk := rfl
  exact (judge_listed .radio (settleWork_listed (judge_listed .fibre h))).congr (restarted _)

theorem badConfirm_listed {s : State} (p : Path) (h : s.Listed) : (badConfirm s p).Listed :=
  applyCause_listed p _ (h.congr rfl)

theorem lineFalls_listed {s : State} (p : Path) (h : s.Listed) : (lineFalls s p).Listed := by
  unfold lineFalls
  split
  · simp only
    split
    · exact badConfirm_listed p (h.congr rfl)
    · exact h.congr rfl
  · exact h
  · exact h

theorem lineRises_walk (s : State) (p : Path) : (lineRises s p).walk = s.walk := by
  unfold lineRises
  split
  · rfl
  · rfl
  · exact (enterTrial_walk _ p).trans rfl

theorem stallExpires_listed {s : State} (p : Path) (h : s.Listed) : (stallExpires s p).Listed := by
  unfold stallExpires
  split
  · exact downEvent_listed p _ h
  · exact downEvent_listed p _ h
  · exact h
  · exact h
  · exact h

theorem powerCycle_listed {s : State} (h : s.Listed) : (powerCycle s).Listed := by
  have off (t : State) (ht : t.Listed) : ({ t with pmn.power.off := some 0 } : State).Listed := ht.congr rfl
  unfold powerCycle
  apply off
  split
  · exact downEvent_listed .radio _ (h.congr rfl)
  · exact h.congr rfl

theorem attachExpires_listed {s : State} (h : s.Listed) : (attachExpires s).Listed := by
  unfold attachExpires
  simp only
  split
  · exact h.congr rfl
  · exact powerCycle_listed (h.congr rfl)

theorem quietExpires_walk (s : State) (a : Activity) : (quietExpires s a).walk = s.walk := by
  cases a <;> exact (testWait_walk _).trans rfl

theorem waitExpires_walk (s : State) : (waitExpires s).walk = s.walk := (testWait_walk _).trans rfl

/-! ### The usage meter -/

theorem computeRegime_walk (s : State) : (computeRegime s).walk = s.walk := by
  unfold computeRegime
  split
  · rfl
  · exact (prompt_walk _).trans rfl

theorem refill_walk (s : State) : (refill s).walk = s.walk := by
  unfold refill
  simp only
  split
  · exact (prompt_walk _).trans rfl
  · rfl

theorem mainsFalls_walk (s : State) : (mainsFalls s).walk = s.walk := by
  unfold mainsFalls
  split
  · simp only
    split
    · exact (computeRegime_walk _).trans rfl
    · rfl
  · rfl
  · rfl

theorem mainsRises_walk (s : State) : (mainsRises s).walk = s.walk := by
  unfold mainsRises
  split
  · rfl
  · rfl
  · exact (computeRegime_walk _).trans rfl

/-! ### The transmit slot map -/

theorem postLoop_walk (n : Nat) (s : State) : (postLoop n s).2.walk = s.walk := by
  induction n generalizing s with
  | zero => rfl
  | succ n ih =>
    unfold postLoop
    simp only
    split
    · exact (ih _).trans (setEntry_walk s _ _)
    · rfl

theorem takePost_walk (s : State) (v : Word) : (takePost s v).walk = s.walk := by
  unfold takePost
  simp only
  split <;> exact postLoop_walk _ s

theorem reclaimLoop_walk (n : Nat) (s : State) : (reclaimLoop n s).2.walk = s.walk := by
  induction n generalizing s with
  | zero => rfl
  | succ n ih =>
    unfold reclaimLoop
    simp only
    split
    · exact (ih _).trans (setEntry_walk s _ _)
    · rfl

theorem takeReclaim_walk (s : State) (v : Word) : (takeReclaim s v).walk = s.walk := by
  unfold takeReclaim
  simp only
  split <;> exact reclaimLoop_walk _ s

theorem takeFetch_walk (s : State) (p : Path) (ps : Nat) : (takeFetch s p ps).walk = s.walk := by
  unfold takeFetch
  simp only
  split
  · split
    case h_1 => exact setEntry_walk s _ _
    case h_2 => exact setEntry_walk s _ _
    all_goals rfl
  · rfl

theorem cancelIf_walk (s : State) (e : TxEntry) (i : Nat) : (cancelIf s e i).walk = s.walk := by
  unfold cancelIf
  split <;> rfl

theorem mirrorCompletion_walk (s : State) (p : Path) (ps i : Nat) (w : Word) :
    (mirrorCompletion s p ps i w).walk = s.walk := by
  have cancelled (t : State) (e : TxEntry) (h : t.walk = s.walk) : (cancelIf t e i).walk = s.walk :=
    (cancelIf_walk t e i).trans h
  unfold mirrorCompletion
  simp only
  split
  · exact (computeRegime_walk _).trans (cancelled _ _ (setEntry_walk s i _))
  · exact cancelled _ _ (setEntry_walk s i _)

theorem takeCompletion_walk (s : State) (p : Path) (ps : Nat) (w : Word) : (takeCompletion s p ps w).walk = s.walk := by
  unfold takeCompletion
  simp only
  split
  · split
    · exact mirrorCompletion_walk s p ps _ w
    · rfl
  · split <;> rfl

theorem passSlot_walk (s : State) (p : Path) (ps : Nat) : (passSlot s p ps).walk = s.walk := by
  have skipped (t : State) (e : TxEntry) (i : Nat) (h : t.walk = s.walk) :
      (skipEntry (cancelIf t e i) i 12).walk = s.walk :=
    (skipEntry_walk _ i 12).trans ((cancelIf_walk t e i).trans h)
  unfold passSlot
  simp only
  split
  · rfl
  · split
    · split
      · exact (computeRegime_walk _).trans (skipped _ _ _ rfl)
      · exact skipped _ _ _ rfl
    · rfl

theorem passLoop_walk (p : Path) (n : Nat) (i : Word) (s : State) : (passLoop p n i s).walk = s.walk := by
  induction n generalizing i s with
  | zero => rfl
  | succ n ih => exact (ih _ _).trans (passSlot_walk s p _)

theorem endRingWait_walk (s : State) (p : Path) : (endRingWait s p).walk = s.walk := by
  unfold endRingWait
  split
  · split
    · exact creditAndRing_walk s _
    · rfl
  · rfl

theorem takeTxConsumer_listed {s : State} (p : Path) (v : Word) (h : s.Listed) : (takeTxConsumer s p v).Listed := by
  have passed := passLoop_walk p (advance v (s.ring p).consumer) (s.ring p).consumer s
  unfold takeTxConsumer
  simp only
  split
  · split
    · exact h.congr passed
    · exact h.congr ((endRingWait_walk _ p).trans passed)
  · exact terminalIndex_listed p h

/-! ### The receive merge unit -/

theorem requestHeader_walk (s : State) (w : Nat) (v : Word) : (requestHeader s w v).walk = s.walk :=
  (congrArg State.walk (requestHeader_spec s w v).1).trans rfl

theorem assignRun_walk (s : State) : (assignRun s).walk = s.walk := by
  obtain ⟨r, l, run⟩ := assignRun_frame s
  exact (congrArg State.walk run).trans rfl

theorem takeRxProducer_listed {s : State} (p : Path) (v : Word) (h : s.Listed) : (takeRxProducer s p v).Listed := by
  unfold takeRxProducer
  simp only
  split
  · split
    · exact h.congr rfl
    · exact h.congr ((assignRun_walk _).trans rfl)
  · exact terminalIndex_listed p h

theorem releaseLoop_walk (n : Nat) (s : State) : (releaseLoop n s).walk = s.walk := by
  induction n generalizing s with
  | zero => rfl
  | succ n ih =>
    unfold releaseLoop
    simp only
    split <;> exact (ih _).trans rfl

theorem writeBack_walk (old s : State) (p : Path) : (writeBack old s p).walk = s.walk := by
  unfold writeBack
  split
  · rfl
  · exact requestHeader_walk _ _ _

theorem takeRelease_walk (s : State) (v : Word) : (takeRelease s v).walk = s.walk := by
  unfold takeRelease
  refine (assignRun_walk _).trans ((writeBack_walk _ _ _).trans ((writeBack_walk _ _ _).trans ?_))
  split <;> exact releaseLoop_walk _ s

/-! ### Near words -/

theorem takeHeader_listed {s : State} (w : Nat) (v : Word) (h : s.Listed) : (takeHeader s w v).Listed := by
  unfold takeHeader
  split
  · exact h.congr (takePost_walk s v)
  · exact h.congr (takeReclaim_walk s v)
  · exact h.congr (takeRelease_walk s v)
  · exact takeTxConsumer_listed _ v h
  · exact takeRxProducer_listed _ v h
  · exact takeTxConsumer_listed _ v h
  · exact takeRxProducer_listed _ v h
  · exact h

theorem lateWrite_walk (s : State) (c : NearCycle) (i : Nat) : (lateWrite s c i).walk = s.walk := by
  unfold lateWrite
  split <;> rfl

theorem takeWord_listed {s : State} (c : NearCycle) (a : Addr) (v : Word) (h : s.Listed) : (takeWord s c a v).Listed := by
  unfold takeWord
  split
  · split
    · split
      · exact h.congr (lateWrite_walk s c _)
      · exact h
    · split
      · exact takeHeader_listed _ v h
      · exact h
    · split
      · exact h.congr (takeFetch_walk s _ _)
      · exact h
    · split
      · exact h.congr (takeCompletion_walk s _ _ v)
      · exact h
    · split
      · exact h.congr ((computeRegime_walk _).trans rfl)
      · exact h
    · exact h
  · exact h

theorem finishWord_walk (s : State) : (finishWord s).walk = s.walk := by
  unfold finishWord
  split
  · rfl
  · split <;> rfl

theorem closeRun_walk (s : State) : (closeRun s).walk = s.walk := by
  unfold closeRun
  split <;> rfl

theorem waitWord_walk (s : State) (c : NearCycle) (v : Word) : (waitWord s c v).walk = s.walk := by
  unfold waitWord
  split <;> rfl

theorem dataOut_walk (s : State) (d : Dir) (v : Word) :
    (if d = .read then { s with nsi.dataOut := v } else s).walk = s.walk := by
  split <;> rfl

theorem transferWord_walk (s : State) (d : Dir) (fa : Addr) (v : Word) : (transferWord s d fa v).walk = s.walk :=
  (finishWord_walk _).trans (dataOut_walk s d v)

theorem grantWord_listed {s : State} (c : NearCycle) (a fa : Addr) (v : Word) (fhold : Bool) (h : s.Listed) :
    (grantWord s c a fa v fhold).Listed := by
  have taken : (takeWord { s with fsp.holdTimer := 0, fsp.pins := s.nearPins c fa v } c a v).Listed :=
    takeWord_listed c a v (h.congr rfl)
  unfold grantWord
  simp only
  split
  · exact taken.congr rfl
  · exact taken.congr (transferWord_walk _ _ _ _)

theorem requestWord_listed {s : State} (c : NearCycle) (a fa : Addr) (v : Word) (fhold : Bool) (h : s.Listed) :
    (requestWord s c a fa v fhold).Listed := by
  have arbitrated (t : State) (ht : t.walk = s.walk) :
      (if t.nearWins then grantWord (chargeNear t) c a fa v fhold else waitWord t c v).Listed := by
    split
    · exact grantWord_listed _ _ _ _ _ (h.congr ht)
    · exact h.congr ((waitWord_walk t c v).trans ht)
  unfold requestWord
  split
  · exact h.congr (waitWord_walk s c v)
  · exact h
  · split
    · exact grantWord_listed _ _ _ _ _ h
    · exact arbitrated _ (closeRun_walk s)
  · exact arbitrated s rfl
  · exact arbitrated _ rfl

theorem nearWord_listed {s : State} (v : Word) (fhold : Bool) (h : s.Listed) : (nearWord s v fhold).Listed := by
  unfold nearWord
  split
  · exact h
  · split
    · exact h
    · split
      · exact h.congr ((finishWord_walk _).trans (dataOut_walk s _ _))
      · split
        · split
          · exact h
          · exact h.congr (transferWord_walk s _ _ v)
        · simp only
          split
          · exact h.congr ((finishWord_walk _).trans ((closeRun_walk _).trans rfl))
          · exact h.congr ((waitWord_walk _ _ v).trans (closeRun_walk s))
          · exact requestWord_listed _ _ _ _ _ h
          · exact requestWord_listed _ _ _ _ _ h

theorem grantNear_listed {s : State} (h : s.Listed) : (grantNear s).Listed := by
  unfold grantNear
  split
  · exact grantWord_listed _ _ _ _ _ (h.congr rfl)
  · exact h

/-! ### Completions of the part's far cycles -/

theorem retrigger_walk (s : State) (cls : Cls) : (retrigger s cls).walk = s.walk := by
  unfold retrigger
  split
  · rfl
  · split
    · rfl
    · split <;> rfl

theorem publish_walk (s : State) (o : Operation) : (publish s o).walk = s.walk :=
  (endOp_walk _ none).trans ((retrigger_walk _ _).trans ((requestHeader_walk _ _ _).trans
    (setEntry_walk s o.slot { s.entry o.slot with state := .placed })))

theorem withdrawn_walk (s : State) (i : Nat) : (withdrawn s i).walk = s.walk := by
  have unmapped (t : State) (h : t.walk = s.walk) : State.walk
      (match t.ple.claim, t.swc.target with
        | .held, some (some p) => beginOp t i .reDecision p
        | _, _ => requeue { t with swc.step := none } i) = s.walk := by
    split
    · exact (beginOp_walk t i _ _).trans h
    · exact (requeue_walk _ i).trans h
  unfold withdrawn
  apply unmapped
  refine (setEntry_walk _ i _).trans ?_
  split <;> rfl

end Sys2Proof.Machine

/-! SUPPORT. Every command ends at rest: its zero-time work is run to the end, or it gives the part nothing to do (log 18). -/

namespace Sys2Proof.Machine

/-! ### How a state comes to rest -/

theorem State.Resting.listed {s : State} (h : s.Resting) : s.Listed := ⟨h.short, h.config⟩

theorem Quieter.walk {s t : State} (h : Quieter s t) : t.walk = s.walk := by
  obtain ⟨⟨part, size⟩, ⟨-, -, list⟩, -⟩ := (workView_iff s t).1 h.view
  exact (walk_iff s t).2 ⟨part, size, list⟩

/-- A part at rest stays so where nothing new is given to the work. -/
theorem Quieter.resting {s t : State} (k : Quieter s t) (h : s.Resting) : t.Resting := by
  obtain ⟨short, config⟩ := h.listed.congr k.walk
  exact ⟨k.rest h.rest, short, config⟩

theorem State.Resting.congr {s t : State} (h : s.Resting) (view : t.workView = s.workView)
    (queue : t.ple.deferralQ = s.ple.deferralQ) (state : t.swc.state = s.swc.state) : t.Resting :=
  (Quieter.of_view view queue state).resting h

theorem syncTimers_quieter (s : State) : Quieter s (syncTimers s) := by
  rw [syncTimers_inLine]
  exact .of_view rfl rfl rfl

/-- The work run to its end, with the timers brought in line, leaves the part at rest. -/
theorem State.Listed.settled {s : State} (h : s.Listed) : (settleWork s).Resting := by
  obtain ⟨short, config⟩ := settleWork_listed h
  exact ⟨(syncTimers_quieter _).rest (runWork_atRest _ s (workMeasure_le s h.short)), short, config⟩

/-- The work that follows an operation which leaves the part state and the list alone. -/
theorem State.Listed.settles {s t : State} (h : s.Listed) (same : t.walk = s.walk) : (settleWork t).Resting :=
  (h.congr same).settled

/-- A part in CONFIG with no migration list. -/
theorem resting_config {s : State} (part : s.pcf.part = .config) (list : s.swc.list = []) : s.Resting := by
  obtain ⟨short, config⟩ := State.Listed.empty list
  exact ⟨workStep_inactive s (by rw [part]; nofun), short, config⟩

/-- A part in CONFIG stays at rest through an operation that leaves the part state and the list alone. -/
theorem State.Resting.in_config {s t : State} (h : s.Resting) (part : s.pcf.part = .config) (same : t.walk = s.walk) :
    t.Resting := by
  obtain ⟨tpart, -, list⟩ := (walk_iff s t).1 same
  exact resting_config (tpart.trans part) (list.trans (h.config part))

/-- The state a command answers, in place of the one it computes. -/
theorem State.Resting.next {u t : State} (e : Host.Outcome.next (φ := Fault) (ρ := Refusal) u = .next t)
    (h : u.Resting) : t.Resting := Host.Outcome.next.inj e ▸ h

/-- Operations under a condition. -/
theorem State.Resting.ite {s : State} (c : Prop) [Decidable c] (act : State → State) (h : s.Resting)
    (acts : (act s).Resting) : (if c then act s else s).Resting := by
  split
  · exact acts
  · exact h

/-! ### The near side -/

theorem nearGrant_resting {s : State} (v : Word) (fhold : Bool) (h : s.Resting) : (nearGrant s v fhold).Resting :=
  h.ite _ (fun s => settleWork (nearWord s v fhold)) (nearWord_listed v fhold h.listed).settled

theorem beginCycle_quieter (s : State) (c : NearCycle) : Quieter s (beginCycle s c) := by
  unfold beginCycle
  split
  · split
    · exact .of_view rfl rfl rfl
    · exact .refl s
  · split
    · exact .of_view rfl rfl rfl
    · exact .refl s

theorem endCycle_quieter (s : State) : Quieter s (endCycle s) := by
  unfold endCycle
  split
  · simp only
    split <;> exact .of_view rfl rfl rfl
  · exact .of_view rfl rfl rfl

theorem finishWord_quieter (s : State) : Quieter s (finishWord s) := by
  unfold finishWord
  split
  · exact .refl s
  · split <;> exact .of_view rfl rfl rfl

/-! ### The far port -/

theorem grantWork_quieter (s : State) : Quieter s (grantWork s) := by
  unfold grantWork
  split
  · split
    · exact .of_view rfl rfl rfl
    · exact .refl s
  · split
    · split
      · exact .of_view rfl rfl rfl
      · exact .refl s
    · exact .refl s

theorem grantPort_resting {s : State} (h : s.Resting) : (grantPort s).Resting := by
  have freed : Quieter s { s with fsp.port := .free } := .of_view rfl rfl rfl
  unfold grantPort
  split
  · simp only
    split
    · exact h.congr rfl rfl rfl
    · split
      · exact (grantNear_listed (freed.resting h).listed).settled
      · exact (freed.trans (grantWork_quieter _)).resting h
  · exact h

theorem syncStreak_quieter (s : State) : Quieter s (syncStreak s) := by
  rw [syncStreak_frame]
  exact .of_view rfl rfl rfl

/-- HALTED is at rest, with the list as it was (R137). -/
theorem enterHalted_resting {s : State} (h : s.Listed) : (enterHalted s).Resting := by
  obtain ⟨frame, -, -⟩ := enterHalted_frame s
  have part : (enterHalted s).pcf.part = .halted := by rw [frame]
  have list : (enterHalted s).swc.list = s.swc.list := by
    rw [enterHalted_halting]
    obtain ⟨-, -, swc⟩ := setService_frame s.halting none
    exact (congrArg Swc.list swc).trans rfl
  refine ⟨workStep_inactive _ (by rw [part]; nofun), ?_, fun config => absurd (part.symm.trans config) nofun⟩
  rw [list, frame]
  exact h.short

theorem takeIntegrity_resting {s : State} (c : FaultCause) (p : Option Path) (i : Option Nat) (h : s.Resting) :
    (takeIntegrity s c p i).Resting := by
  have faulted : Quieter s (takeFault s c p i) := .of_view rfl rfl rfl
  unfold takeIntegrity
  simp only
  split
  · exact enterHalted_resting (faulted.resting h).listed
  · exact enterHalted_resting (faulted.resting h).listed
  · exact faulted.resting h
  · exact faulted.resting h

theorem partTimeout_resting {s : State} (a : Access) (h : s.Resting) : (partTimeout s a).Resting := by
  unfold partTimeout
  split
  · exact takeIntegrity_resting _ _ _ h
  · split
    · exact takeIntegrity_resting _ _ _ h
    · simp only
      split <;> exact h.congr rfl rfl rfl

theorem killCycle_quieter (s : State) (w : NearFlight) : Quieter s (killCycle s w) := by
  have ended (t : State) (k : Quieter s t) :
      Quieter s (finishWord { t with nsi.near := t.nsi.near.map (fun c => { c with dead := true }) }) := by
    refine Quieter.trans ?_ (finishWord_quieter _)
    exact k.trans (.of_view rfl rfl rfl)
  unfold killCycle
  apply ended
  split
  · exact .of_view rfl rfl rfl
  · exact .refl s

theorem holdLimit_resting {s : State} (h : s.Resting) : (holdLimit s).Resting := by
  have limited : Quieter s { s with fsp.port := .free, fsp.holdTimer := Config.farHoldLimit } := .of_view rfl rfl rfl
  have faulted (t : State) (w : NearFlight) : Quieter t (nearTimeout t w) := .of_view rfl rfl rfl
  unfold holdLimit
  split
  · exact h
  · exact h
  · exact ((limited.trans (killCycle_quieter _ _)).trans (faulted _ _)).resting h
  · exact (limited.trans (faulted _ _)).resting h
  · exact partTimeout_resting _ (limited.resting h)

theorem completeAccess_resting {s : State} (k : AccessKind) (act : State → Access → State) (h : s.Resting)
    (acts : ∀ u a, u.Resting → (act u a).Resting) : (completeAccess s k act).Resting := by
  unfold completeAccess
  split
  · exact h
  · have freed : ({ s with fsp.port := .free } : State).Resting := h.congr rfl rfl rfl
    exact freed.ite _ (fun u => act u _) (acts _ _ freed)

theorem readDone_resting (d : Descriptor) (s : State) (a : Access) (h : s.Resting) : (readDone d s a).Resting := by
  unfold readDone
  split
  · exact h
  · exact h.listed.settles ((decideOp_walk _ _).trans (takeRead_walk s _ d))

theorem copyDone_resting (s : State) (a : Access) (h : s.Resting) : (copyDone s a).Resting := by
  unfold copyDone
  split
  · exact h
  · exact h.listed.settles (publish_walk s _)

theorem withdrawalDone_resting (s : State) (a : Access) (h : s.Resting) : (withdrawalDone s a).Resting := by
  unfold withdrawalDone
  split
  · exact h
  · exact h.listed.settles (withdrawn_walk s _)

theorem setEntry_quieter (s : State) (i : Nat) (e : TxEntry) : Quieter s (setEntry s i e) := by
  refine .of_view ?_ rfl rfl
  rw [workView_iff]
  exact ⟨⟨rfl, List.length_set⟩, ⟨rfl, rfl, rfl⟩, rfl, rfl, rfl, rfl, rfl⟩

theorem serviceWriteDone_resting (s : State) (a : Access) (h : s.Resting) : (serviceWriteDone s a).Resting := by
  unfold serviceWriteDone
  split
  · exact h
  · exact (setEntry_quieter s _ _).resting h

theorem startReadDone_resting (v : Word) (s : State) (a : Access) (h : s.Resting) : (startReadDone v s a).Resting := by
  have taken : Quieter s (startTake s a.hdr v) := by
    unfold startTake
    split
    case h_2 =>
      split
      · exact .refl s
      · exact .of_view rfl rfl rfl
    all_goals exact .of_view rfl rfl rfl
  have requested (t : State) (b : Access) : Quieter t (requestShort t b) := .of_view rfl rfl rfl
  exact (taken.trans (requested _ _)).resting h

theorem becomeActive_resting {s : State} (h : s.Listed) : (becomeActive s).Resting := by
  let begun : State := clearSilence (clearSilence { s with pcf.part := .active, umt.pool := s.sdc.settings.metering.ceiling }
    .fibre) .radio
  have active : begun.Listed := ⟨h.short, nofun⟩
  have served (p : Option Path) :
      (if p = none then takeFault (setService begun p) .noPath none none else setService begun p).walk = begun.walk := by
    split <;> exact setService_walk begun p
  exact (active.congr (served _)).settled

theorem startWriteDone_resting (s : State) (a : Access) (h : s.Resting) : (startWriteDone s a).Resting := by
  have requested (b : Access) : (requestShort s b).Resting := h.congr rfl rfl rfl
  unfold startWriteDone
  split
  · exact requested _
  · exact requested _
  · exact requested _
  · exact requested _
  · exact h.ite _ becomeActive (becomeActive_resting h.listed)

/-! ### Timers and lines -/

theorem expiry_resting {s : State} (runs : Bool) (act : State → State) (h : s.Resting) (acts : (act s).Listed) :
    (expiry s runs act).Resting := h.ite _ (fun s => settleWork (act s)) acts.settled

theorem moveLine_resting {s : State} (p : Path) (level : Bool) (h : s.Resting) : (moveLine s p level).Resting := by
  unfold moveLine
  split
  · exact h
  · have moved : Quieter s { s with lines := s.lines.setLevel p level } := .of_view rfl rfl rfl
    refine (moved.resting h).ite _ (fun t => settleWork (if level then lineRises t p else lineFalls t p)) ?_
    apply State.Listed.settled
    split
    · exact (moved.resting h).listed.congr (lineRises_walk _ p)
    · exact lineFalls_listed p (moved.resting h).listed

theorem moveMains_resting {s : State} (level : Bool) (h : s.Resting) : (moveMains s level).Resting := by
  unfold moveMains
  split
  · exact h
  · have moved : Quieter s { s with lines.mains := level } := .of_view rfl rfl rfl
    refine (moved.resting h).ite _ (fun t => settleWork (if level then mainsRises t else mainsFalls t)) ?_
    apply State.Listed.settled
    split
    · exact (moved.resting h).listed.congr (mainsRises_walk _)
    · exact (moved.resting h).listed.congr (mainsFalls_walk _)

/-- A record that expires leaves the queue, and its entry stays in the table. -/
theorem expireRecord_quieter (s : State) (r : DeferralRec) : Quieter s (expireRecord s r) := by
  refine ⟨?_, fun empty => ?_, id⟩
  · rw [workView_iff]
    exact ⟨⟨rfl, skipEntry_length _ r.slot 9⟩, ⟨rfl, rfl, rfl⟩, rfl, rfl, rfl, rfl, rfl⟩
  · show s.ple.deferralQ.filter _ = []
    rw [empty]
    rfl

theorem deferralTick_quieter (s : State) : Quieter s (deferralTick s) := by
  have expired (l : List DeferralRec) : ∀ t : State, Quieter t (l.foldl expireRecord t) := by
    induction l with
    | nil => exact .refl
    | cons r rest ih => exact fun t => (expireRecord_quieter t r).trans (ih _)
  have ticked : Quieter s { s with clock.secDue := false } := .of_view rfl rfl rfl
  unfold deferralTick
  simp only
  split
  · exact ticked.trans (expired _ _)
  · exact ticked

theorem evalStandby_quieter (s : State) : Quieter s (evalStandby s) := by
  rw [(evalStandby_frame s).1]
  exact .of_view rfl rfl rfl

theorem stopKeep_quieter (s : State) : Quieter s (stopKeep s) :=
  Quieter.trans (t := { s with pmn.power.keep := none }) (.of_view rfl rfl rfl) (evalStandby_quieter _)

/-! ### Setting cycles -/

theorem refuse_quieter (s : State) (c : RefusalCause) (tag : Tag) (addr : Addr) (dir : Dir) :
    Quieter s (refuse s c tag addr dir) := by
  unfold refuse
  simp only
  split <;> exact .of_view rfl rfl rfl

/-- A setting write ends at rest where its taking does, of a write that the decoder and its owner pass. -/
theorem writeCycle_resting {s : State} (tag : Tag) (addr : Addr) (v : Word) (owner : State → Option RefusalCause)
    (take : State → State) (h : s.Resting)
    (takes : ∀ u, judgeWrite u tag addr v = none → owner u = none → u.Resting → (take u).Resting) :
    (writeCycle s tag addr v owner take).Resting := by
  have ended : ({ s with nsi.near := none } : State).Resting := h.congr rfl rfl rfl
  unfold writeCycle
  split
  · simp only
    split
    · exact ended
    · split
      · exact (refuse_quieter _ _ _ _ _).resting ended
      · rename_i judged
        split
        · exact (refuse_quieter _ _ _ _ _).resting ended
        · rename_i owned
          exact takes _ judged owned ended
  · exact h

theorem takeReadEffect_quieter (s : State) (g i x : Nat) : Quieter s (takeReadEffect s g i x) := by
  unfold takeReadEffect
  split
  case h_1 => exact .of_view rfl rfl rfl
  case h_7 => exact .refl s
  all_goals
    split
    · exact .of_view rfl rfl rfl
    · exact .refl s

theorem readCycle_quieter (s : State) (tag : Tag) (addr : Addr) : Quieter s (readCycle s tag addr) := by
  have ended : Quieter s { s with nsi.near := none } := .of_view rfl rfl rfl
  have answered (t : State) (w : Word) : Quieter t { t with nsi.dataOut := w } := .of_view rfl rfl rfl
  unfold readCycle
  split
  · simp only
    split
    · exact ended.trans (answered _ 0)
    · split
      · exact ended.trans (refuse_quieter _ _ _ _ _)
      · exact (ended.trans (takeReadEffect_quieter _ _ _ _)).trans (answered _ _)
  · exact .refl s

theorem burstCycle_quieter (s : State) (tag : Tag) (addr : Addr) (dir : Dir) : Quieter s (burstCycle s tag addr dir) := by
  unfold burstCycle
  split
  · simp only
    split
    · split <;> exact .of_view rfl rfl rfl
    · refine Quieter.trans ?_ (refuse_quieter _ _ _ _ _)
      exact .of_view rfl rfl rfl
  · exact .refl s

/-! ### Taken settings -/

theorem expireIf_resting {s : State} (due : Bool) (act : State → State) (h : s.Resting) (acts : (act s).Listed) :
    (expireIf due act s).Resting := h.ite _ (fun s => settleWork (act s)) acts.settled

theorem afterTiming_resting {s : State} (i : Nat) (h : s.Resting) : (afterTiming s i).Resting := by
  have stalled {t : State} (p : Path) (ht : t.Resting) (due : Bool) : (expireIf due (fun u => stallExpires u p) t).Resting :=
    expireIf_resting due _ ht (stallExpires_listed p ht.listed)
  unfold afterTiming
  split
  · exact expireIf_resting _ _ h (badConfirm_listed _ h.listed)
  · exact expireIf_resting _ _ h (badConfirm_listed _ h.listed)
  · exact stalled .radio (stalled .fibre ((syncTimers_quieter s).resting h) _) _
  · exact expireIf_resting _ _ h (h.listed.congr (quietExpires_walk s _))
  · exact expireIf_resting _ _ h (h.listed.congr (quietExpires_walk s _))
  · exact expireIf_resting _ _ h (h.listed.congr (waitExpires_walk s))
  · exact h

theorem powerOffExpires_quieter (s : State) : Quieter s (powerOffExpires s) := .of_view rfl rfl rfl

theorem afterRadio_resting {s : State} (i : Nat) (h : s.Resting) : (afterRadio s i).Resting := by
  unfold afterRadio
  split
  · exact expireIf_resting _ _ h (attachExpires_listed h.listed)
  · exact h.ite _ powerOffExpires ((powerOffExpires_quieter s).resting h)
  · exact h.ite _ stopKeep ((stopKeep_quieter s).resting h)
  · exact expireIf_resting _ _ h (h.listed.congr ((computeRegime_walk _).trans rfl))
  · exact h

theorem takeStandby_resting {s : State} (v : Word) (h : s.Resting) : (takeStandby v s).Resting := by
  unfold takeStandby
  simp only
  split
  · exact h
  · split
    · refine h.listed.settles ?_
      split <;> exact (evalStandby_walk _).trans rfl
    · exact h.listed.settles ((evalStandby_walk _).trans rfl)

theorem takeCap_resting {s : State} (c : Cap) (v : Word) (h : s.Resting) : (takeCap c v s).Resting :=
  h.listed.settles ((computeRegime_walk _).trans rfl)

theorem takeCeiling_quieter (s : State) (v : Word) : Quieter s (takeCeiling v s) := .of_view rfl rfl rfl

/-- A preset is taken in CONFIG, where no work is done (R179). -/
theorem takePreset_resting {s : State} (x : BitVec 8) (v : Word) (config : s.pcf.part = .config) (h : s.Resting) :
    (takePreset x v s).Resting := by
  refine h.in_config config ((computeRegime_walk _).trans ?_)
  split <;> rfl

/-- The sizes are set in CONFIG, where the list is empty (R42, R45). -/
theorem resizeTables_resting {s : State} (i : Nat) (config : s.pcf.part = .config) (h : s.Resting) :
    (resizeTables s i).Resting := by
  unfold resizeTables
  split <;> exact resting_config config (h.config config)

/-- What the decoder passes of the groups and items for CONFIG alone comes in CONFIG (R176). -/
theorem judgeWrite_configOnly {s : State} {tag : Tag} {addr : Addr} {v : Word} (judged : judgeWrite s tag addr v = none)
    (only : configOnly (settingGroup addr).toNat (settingItem addr).toNat = true) : s.pcf.part = .config := by
  refine Decidable.byContradiction fun other => ?_
  unfold judgeWrite at judged
  simp only [only, ne_eq, other, not_false_eq_true, and_self, if_true] at judged
  split at judged
  · cases judged
  · split at judged <;> cases judged

theorem takeMetering_resting {s : State} (i : Nat) (x : BitVec 8) (v : Word) (config : i = 6 → s.pcf.part = .config)
    (h : s.Resting) : (takeMetering i x v s).Resting := by
  unfold takeMetering
  split
  · exact takeCap_resting .soft v h
  · exact takeCap_resting .hard v h
  · exact (takeCeiling_quieter s v).resting h
  · exact takePreset_resting x v (config rfl) h
  · have stored : Quieter s
        { s with sdc.settings.metering := storeMetering s.sdc.settings.metering i v.toNat } := .of_view rfl rfl rfl
    simp only
    split
    · exact expireIf_resting _ _ (stored.resting h) ((stored.resting h).listed.congr (refill_walk _))
    · exact stored.resting h

/-! ### Taken commands -/

/-- START is taken in CONFIG, where the list is empty (R188). -/
theorem takeStart_resting {s : State} (taken : startRefusal s = none) (h : s.Resting) : (takeStart s).Resting := by
  have config : s.pcf.part = .config :=
    Decidable.byContradiction fun other => absurd (taken.symm.trans (startRefusal_state s other)) nofun
  have list : (takeStart s).swc.list = [] := h.config config
  obtain ⟨short, kept⟩ := State.Listed.empty list
  exact ⟨workStep_inactive _ nofun, short, kept⟩

theorem takeReconfigure_resting (s : State) : (takeReconfigure s).Resting := resting_config rfl rfl

theorem endWait_quieter (s : State) : Quieter s (endWait s) := ⟨rfl, id, nofun⟩

theorem takeForce_resting {s : State} (v : Word) (h : s.Resting) : (takeForce v s).Resting := by
  unfold takeForce
  split
  · exact h.listed.settles ((failbackTest_walk _).trans rfl)
  · rename_i p _
    have forced : Quieter s { s with swc.force := some p } := .of_view rfl rfl rfl
    simp only
    split
    · exact (forced.resting h).ite _ endWait ((endWait_quieter _).resting (forced.resting h))
    · exact h.listed.settles ((startMigration_walk _ _ _).trans rfl)

theorem takeFailbackNow_resting {s : State} (h : s.Resting) : (takeFailbackNow s).Resting :=
  h.listed.settles ((startMigration_walk _ _ _).trans rfl)

theorem takeFailbackMode_resting {s : State} (v : Word) (h : s.Resting) : (takeFailbackMode v s).Resting := by
  have ended : Quieter s (raiseAlert (endWait { s with swc.mode := .manual }) .failbackHeld) := ⟨rfl, id, nofun⟩
  unfold takeFailbackMode
  split
  · exact h.listed.settles ((failbackTest_walk _).trans rfl)
  · simp only
    split
    · exact ended.resting h
    · exact h.congr rfl rfl rfl

theorem takeRadioRestart_quieter (s : State) : Quieter s (takeRadioRestart s) := by
  have powered : Quieter s (powerUp { s with pmn.power.retry := 0 }) := .of_view rfl rfl rfl
  have kept (t : State) : Quieter t (startKeep t) :=
    Quieter.trans (t := { t with pmn.power.keep := some 0 }) (.of_view rfl rfl rfl) (evalStandby_quieter _)
  unfold takeRadioRestart
  simp only
  split
  · exact powered.trans (kept _)
  · exact powered

theorem takePeriodRestart_resting {s : State} (h : s.Resting) : (takePeriodRestart s).Resting :=
  h.listed.settles ((computeRegime_walk _).trans rfl)

theorem takeClearAlerts_quieter (s : State) : Quieter s (takeClearAlerts s) := .of_view rfl rfl rfl

theorem takeClearFaults_quieter (s : State) : Quieter s (takeClearFaults s) := .of_view rfl rfl rfl

theorem takeAlertEnable_quieter (s : State) (v : Word) : Quieter s (takeAlertEnable v s) := .of_view rfl rfl rfl

theorem takeCommand_resting {s : State} (i : Nat) (v : Word) (taken : commandRefusal i v s = none) (h : s.Resting) :
    (takeCommand i v s).Resting := by
  unfold takeCommand
  split
  · exact takeStart_resting taken h
  · exact enterHalted_resting h.listed
  · exact takeReconfigure_resting s
  · exact takeForce_resting v h
  · exact takeFailbackNow_resting h
  · exact takeFailbackMode_resting v h
  · exact (takeRadioRestart_quieter s).resting h
  · exact takePeriodRestart_resting h
  · exact (takeClearAlerts_quieter s).resting h
  · exact (takeClearFaults_quieter s).resting h
  · exact (takeAlertEnable_quieter s v).resting h
  · exact h

theorem takeSetting_resting {s : State} {tag : Tag} {addr : Addr} {v : Word} (judged : judgeWrite s tag addr v = none)
    (owned : settingRefusal addr v s = none) (h : s.Resting) : (takeSetting addr v s).Resting := by
  have stored {t : State} (k : Quieter s t) : t.Resting := k.resting h
  have config := judgeWrite_configOnly judged
  unfold takeSetting
  simp only
  split
  · exact stored (.of_view rfl rfl rfl)
  · rename_i group
    exact resizeTables_resting _ (config (by rw [group]; rfl)) (stored (.of_view rfl rfl rfl))
  · exact stored (.of_view rfl rfl rfl)
  · exact afterTiming_resting _ (stored (.of_view rfl rfl rfl))
  · split
    · exact takeStandby_resting v h
    · exact afterRadio_resting _ (stored (.of_view rfl rfl rfl))
  · rename_i group
    exact takeMetering_resting _ _ v (fun item => config (by rw [group, item]; rfl)) h
  · rename_i group
    rw [settingRefusal, if_pos group] at owned
    exact takeCommand_resting _ v owned h
  · exact h

/-! ### Commands and steps -/

theorem lowReset_resting (l : Lines) (queue : List Instr) : (State.lowReset l queue).Resting := resting_config rfl rfl

theorem releaseReset_resting (s : State) : (releaseReset s).Resting := resting_config rfl rfl

theorem exec_resting (c : Instr) (s t : State) (h : s.Resting) (e : exec c s = .next t) : t.Resting := by
  have quiet {u : State} (k : Quieter s u) (e : Host.Outcome.next (φ := Fault) (ρ := Refusal) u = .next t) : t.Resting :=
    .next e (k.resting h)
  cases c with
  | resetAssert =>
    exact .next e (h.ite _ (fun s => State.lowReset s.lines s.pending) (lowReset_resting _ _))
  | resetRelease =>
    refine .next e ?_
    split
    · exact h
    · exact releaseReset_resting s
  | settleEnd => exact .next e (h.congr rfl rfl rfl)
  | nearCycleBegin addr dir burst tag cfgn msetn => exact quiet (beginCycle_quieter s _) e
  | nearWordGrant data fhold => exact .next e (nearGrant_resting data fhold h)
  | selRise => exact quiet (endCycle_quieter s) e
  | settingWrite tag addr v => exact .next e (writeCycle_resting _ _ _ _ _ h fun _ => takeSetting_resting)
  | settingBurst tag addr dir => exact quiet (burstCycle_quieter s tag addr dir) e
  | standbyPolicySetting tag x v => exact .next e (writeCycle_resting _ _ _ _ _ h fun _ _ _ => takeStandby_resting v)
  | capSetting cap tag x v => exact .next e (writeCycle_resting _ _ _ _ _ h fun _ _ _ => takeCap_resting cap v)
  | poolCeilingSetting tag x v =>
    exact .next e (writeCycle_resting _ _ _ _ _ h fun u _ _ => (takeCeiling_quieter u v).resting)
  | meterPreset tag x v =>
    refine .next e (writeCycle_resting _ _ _ _ _ h fun u judged _ => takePreset_resting x v ?_)
    refine judgeWrite_configOnly judged ?_
    rw [settingGroup_settingAddr, settingItem_settingAddr]
    rfl
  | meterSnapshotRead tag => exact quiet (readCycle_quieter s _ _) e
  | summaryLatchRead tag => exact quiet (readCycle_quieter s _ _) e
  | uptimeLatchRead tag => exact quiet (readCycle_quieter s _ _) e
  | faultRecordLatchRead sel tag => exact quiet (readCycle_quieter s _ _) e
  | alertPendingRead tag x => exact quiet (readCycle_quieter s _ _) e
  | start tag x v => exact .next e (writeCycle_resting _ _ _ _ _ h fun _ _ => takeStart_resting)
  | halt tag x v => exact .next e (writeCycle_resting _ _ _ _ _ h fun _ _ _ hu => enterHalted_resting hu.listed)
  | reconfigure tag x v => exact .next e (writeCycle_resting _ _ _ _ _ h fun u _ _ _ => takeReconfigure_resting u)
  | forcePath tag x v => exact .next e (writeCycle_resting _ _ _ _ _ h fun _ _ _ => takeForce_resting v)
  | failbackNow tag x v => exact .next e (writeCycle_resting _ _ _ _ _ h fun _ _ _ => takeFailbackNow_resting)
  | failbackMode tag x v => exact .next e (writeCycle_resting _ _ _ _ _ h fun _ _ _ => takeFailbackMode_resting v)
  | radioRestart tag x v =>
    exact .next e (writeCycle_resting _ _ _ _ _ h fun u _ _ => (takeRadioRestart_quieter u).resting)
  | periodRestart tag x v => exact .next e (writeCycle_resting _ _ _ _ _ h fun _ _ _ => takePeriodRestart_resting)
  | clearAlerts tag x v =>
    exact .next e (writeCycle_resting _ _ _ _ _ h fun u _ _ => (takeClearAlerts_quieter u).resting)
  | clearFaults tag x v =>
    exact .next e (writeCycle_resting _ _ _ _ _ h fun u _ _ => (takeClearFaults_quieter u).resting)
  | alertEnable tag x v =>
    exact .next e (writeCycle_resting _ _ _ _ _ h fun u _ _ => (takeAlertEnable_quieter u v).resting)
  | farGrant =>
    exact .next e (h.ite _ (fun s => syncStreak (grantPort s)) ((syncStreak_quieter _).resting (grantPort_resting h)))
  | farHoldLimit => exact .next e (holdLimit_resting h)
  | placementReadComplete words => exact .next e (completeAccess_resting _ _ h (readDone_resting words))
  | publication => exact .next e (completeAccess_resting _ _ h copyDone_resting)
  | withdrawalWriteComplete => exact .next e (completeAccess_resting _ _ h withdrawalDone_resting)
  | mirrorWriteComplete => exact .next e (completeAccess_resting _ _ h serviceWriteDone_resting)
  | finalWriteComplete => exact .next e (completeAccess_resting _ _ h serviceWriteDone_resting)
  | headerWriteComplete => exact .next e (completeAccess_resting _ _ h fun _ _ => id)
  | startReadComplete v => exact .next e (completeAccess_resting _ _ h (startReadDone_resting v))
  | startWriteComplete => exact .next e (completeAccess_resting _ _ h startWriteDone_resting)
  | lineChange p level => exact .next e (moveLine_resting p level h)
  | confirmTimerExpiry p => exact .next e (expiry_resting _ _ h (badConfirm_listed p h.listed))
  | heartbeatIntervalEnd => exact .next e (expiry_resting _ _ h (heartbeatEnd_listed h.listed))
  | stallTimerExpiry p => exact .next e (expiry_resting _ _ h (stallExpires_listed p h.listed))
  | attachTimerExpiry => exact .next e (expiry_resting _ _ h (attachExpires_listed h.listed))
  | powerOffTimerExpiry => exact .next e (h.ite _ powerOffExpires ((powerOffExpires_quieter s).resting h))
  | keepTimerExpiry => exact .next e (h.ite _ stopKeep ((stopKeep_quieter s).resting h))
  | flapExpiry => exact .next e (h.ite _ flapTick (h.congr rfl rfl rfl))
  | deferralExpiry => exact .next e (h.ite _ deferralTick ((deferralTick_quieter s).resting h))
  | quietTimerExpiry a => exact .next e (expiry_resting _ _ h (h.listed.congr (quietExpires_walk s a)))
  | failbackWaitExpiry => exact .next e (expiry_resting _ _ h (h.listed.congr (waitExpires_walk s)))
  | mainsChange level => exact .next e (moveMains_resting level h)
  | mainsConfirmExpiry => exact .next e (expiry_resting _ _ h (h.listed.congr ((computeRegime_walk _).trans rfl)))
  | creditRefill => exact .next e (expiry_resting _ _ h (h.listed.congr (refill_walk s)))
  | refusedSettingRead tag addr => exact quiet (readCycle_quieter s _ _) e

theorem tick_quieter (s : State) : Quieter s (tick s) := .of_view rfl rfl rfl

/-- Settles O58: the zero-time work comes to its end within its fuel (`runWork_atRest`, `workMeasure_le`), and a command that
runs none of it gives it nothing to do (`exec_resting`); a step on an empty queue runs the expiry that is due or one REFCLK
cycle. -/
theorem everyStepComesToRest : Obligations.EveryStepComesToRest := by
  intro s t h e
  cases queue : s.pending with
  | cons c rest =>
    rw [stepRunsFrontCommand c rest s queue] at e
    refine exec_resting c _ t ?_ e
    exact h.congr rfl rfl rfl
  | nil =>
    rw [step_idle queue] at e
    cases rstn : s.rstn with
    | false =>
      rw [idleStep_low rstn] at e
      exact .next e h
    | true =>
      cases due : s.due with
      | some c =>
        rw [idleStep_due rstn due] at e
        exact exec_resting c s t h e
      | none =>
        rw [idleStep_tick rstn due] at e
        exact .next e ((tick_quieter s).resting h)

end Sys2Proof.Machine

/-! SUPPORT. An invariant of every command: the operations of the units that an invariant must be kept by, and the walk through
the near side, the far port, the setting decoder and the timers that carries it to every command and every step. -/

namespace Sys2Proof.Machine

/-! ### What the invariants read -/

/-- A path record as the invariants read it: its health and its counts. -/
def PathRecord.counted (r : PathRecord) : Health × Nat × Nat × Nat × Nat := (r.health, r.trial, r.silence, r.downs, r.trials)

/-- What the invariants read of the state, but for the far requests, the near streak and the far hold timer. -/
def State.core (s : State) : (PartState × FaultCounts × Nat) × (Tsm × Ple × Rmu) ×
    ((PowerPhase × Timer × Timer × Nat) × (Health × Nat × Nat × Nat × Nat) × (Health × Nat × Nat × Nat × Nat) ×
      List (BitVec 32)) ×
    (Option Path × SwitchState × List MigrationItem × Nat × Nat) × (BitVec 64 × BitVec 64 × Nat) ×
    (BusSettings × Geometry × Nat) :=
  ((s.pcf.part, s.pcf.counts, s.clock.sub), (s.tsm, s.ple, s.rmu),
    ((s.pmn.power.phase, s.pmn.power.attach, s.pmn.power.off, s.pmn.power.retry), s.pmn.recs.fibre.counted,
      s.pmn.recs.radio.counted, s.pmn.flaps),
    (s.swc.service, s.swc.state, s.swc.list, s.swc.failovers, s.swc.failbacks), (s.umt.tx, s.umt.rx, s.umt.pool),
    (s.sdc.settings.bus, s.sdc.settings.geometry, s.sdc.settings.metering.ceiling))

/-- What the invariants read of the far port. -/
def State.farCore (s : State) : List Access × Option Access × Nat × Nat :=
  (s.fsp.list, s.fsp.copyReq, s.fsp.streak, s.fsp.holdTimer)

/-! ### The operations an invariant must be kept by -/

/-- The predicate is kept by the operations of the units that every command is made of, RECONFIGURE and the reset line
aside. -/
structure Kept (P : State → Prop) : Prop where
  free : ∀ {s t : State}, P s → t.core = s.core → t.farCore = s.farCore → P t
  fault : ∀ {s} c p i, P s → P (takeFault s c p i)
  charge : ∀ {s}, P s → P (chargeNear s)
  streak : ∀ {s}, P s → P { s with fsp.streak := 0 }
  hold : ∀ {s n}, n ≤ 256 → P s → P { s with fsp.holdTimer := n }
  requests : ∀ {s l q}, s.pcf.part ≠ .halted → P s → P { s with fsp.list := l, fsp.copyReq := q }
  settle : ∀ {s}, P s → P (settleWork s)
  word : ∀ {s} c a v, P s → P (takeWord s c a v)
  halt : ∀ {s}, s.pcf.part ≠ .halted → P s → P (enterHalted s)
  readDone : ∀ {s} d a, s.pcf.part ≠ .halted → P s → P (readDone d s a)
  copyDone : ∀ {s} a, s.pcf.part ≠ .halted → P s → P (copyDone s a)
  withdrawalDone : ∀ {s} a, s.pcf.part ≠ .halted → P s → P (withdrawalDone s a)
  serviceWriteDone : ∀ {s} a, s.pcf.part ≠ .halted → P s → P (serviceWriteDone s a)
  startReadDone : ∀ {s} v a, s.pcf.part ≠ .halted → P s → P (startReadDone v s a)
  startWriteDone : ∀ {s} a, s.pcf.part ≠ .halted → P s → P (startWriteDone s a)
  judge : ∀ {s} p, P s → P (judge s p)
  trial : ∀ {s} p, P s → P (enterTrial s p)
  confirm : ∀ {s} p, P s → P (badConfirm s p)
  stall : ∀ {s} p, P s → P (stallExpires s p)
  attach : ∀ {s}, s.pmn.power.attach ≠ none → P s → P (attachExpires s)
  powerOff : ∀ {s}, s.pmn.power.off ≠ none → P s → P (powerOffExpires s)
  standby : ∀ {s}, P s → P (evalStandby s)
  flaps : ∀ {s}, P s → P (flapTick s)
  ages : ∀ {s}, P s → P (deferralTick s)
  quiet : ∀ {s} a, P s → P (quietExpires s a)
  wait : ∀ {s}, P s → P (waitExpires s)
  regime : ∀ {s}, P s → P (computeRegime s)
  meters : ∀ {s} tx rx, (tx.toNat ≤ s.umt.tx.toNat ∧ rx.toNat ≤ s.umt.rx.toNat) ∨ s.pcf.part = .config → P s →
    P { s with umt.tx := tx, umt.rx := rx }
  refill : ∀ {s}, P s → P (refill s)
  tick : ∀ {s}, P s → P (tick s)
  bus : ∀ {s} b, s.pcf.part = .config → P s → P { s with sdc.settings.bus := b }
  resize : ∀ {s} g i, s.pcf.part = .config → P s → P (resizeTables { s with sdc.settings.geometry := g } i)
  ceiling : ∀ {s} v, P s → P (takeCeiling v s)
  start : ∀ {s}, startRefusal s = none → P s → P (takeStart s)
  force : ∀ {s} v, forceRefusal v s = none → P s → P (takeForce v s)
  failbackNow : ∀ {s}, failbackNowRefusal s = none → P s → P (takeFailbackNow s)
  failbackMode : ∀ {s} v, P s → P (takeFailbackMode v s)
  radioRestart : ∀ {s}, radioRestartRefusal s = none → P s → P (takeRadioRestart s)
  clearFaults : ∀ {s}, P s → P (takeClearFaults s)

section
variable {P : State → Prop} (K : Kept P) {s : State}
include K

/-! ### Timers, guards and accesses -/

omit K in
theorem kept_ite {c : Prop} [Decidable c] {a b : State} (ha : c → P a) (hb : P b) : P (if c then a else b) := by
  split
  · rename_i h
    exact ha h
  · exact hb

theorem Kept.syncTimers (h : P s) : P (syncTimers s) := by
  have stalls (u : State) (p : Path) (hu : P u) : P (syncStall u p) := by
    refine K.free hu ?_ ?_
    · rw [syncStall_frame]
      cases p <;> rfl
    · rw [syncStall_frame]
      rfl
  unfold Machine.syncTimers syncStreak
  split
  · exact stalls _ _ (stalls _ _ h)
  · exact K.streak (stalls _ _ (stalls _ _ h))

theorem Kept.syncStreak (h : P s) : P (syncStreak s) := by
  unfold Machine.syncStreak
  exact kept_ite (fun _ => h) (K.streak h)

theorem Kept.stopKeep (h : P s) : P (stopKeep s) := K.standby (K.free h rfl rfl)

theorem Kept.startKeep (h : P s) : P (startKeep s) := K.standby (K.free h rfl rfl)

theorem Kept.mainsAbsent (h : P s) : P (mainsAbsent s) := K.regime (K.free h rfl rfl)

theorem Kept.expiry (runs : Bool) (act : State → State) (h : P s) (acts : runs = true → P (act s)) :
    P (expiry s runs act) := by
  refine kept_ite (fun running => K.settle (acts ?_)) h
  exact (Bool.and_eq_true_iff.mp running).2

theorem Kept.expireIf (due : Bool) (act : State → State) (h : P s) (acts : due = true → P (act s)) :
    P (expireIf due act s) := kept_ite (fun d => K.settle (acts d)) h

/-! ### Near words -/

theorem Kept.finishWord (h : P s) : P (finishWord s) := by
  unfold Machine.finishWord
  split
  · exact h
  · split <;> exact K.free h rfl rfl

theorem Kept.closeRun (h : P s) : P (closeRun s) := by
  rw [closeRun_port]
  exact K.free h rfl rfl

theorem Kept.waitWord (c : NearCycle) (v : Word) (h : P s) : P (waitWord s c v) :=
  kept_ite (fun _ => K.free h rfl rfl) h

theorem Kept.dataOut (d : Dir) (v : Word) (h : P s) : P (if d = .read then { s with nsi.dataOut := v } else s) :=
  kept_ite (fun _ => K.free h rfl rfl) h

theorem Kept.transferWord (d : Dir) (fa : Addr) (v : Word) (h : P s) : P (transferWord s d fa v) := by
  unfold Machine.transferWord
  have finished := K.finishWord (K.dataOut d v h)
  exact K.free finished rfl rfl

theorem Kept.grantWord (c : NearCycle) (a fa : Addr) (v : Word) (fhold : Bool) (h : P s) :
    P (grantWord s c a fa v fhold) := by
  have taken := K.word c a v (K.free (t := { s with fsp.holdTimer := 0, fsp.pins := s.nearPins c fa v })
    (K.hold (Nat.zero_le _) h) rfl rfl)
  unfold Machine.grantWord
  exact kept_ite (fun _ => K.free taken rfl rfl)
    (K.transferWord c.dir fa v taken)

theorem Kept.requestWord (c : NearCycle) (a fa : Addr) (v : Word) (fhold : Bool) (h : P s) :
    P (requestWord s c a fa v fhold) := by
  have arbitrated {u : State} (hu : P u) :
      P (if u.nearWins then Machine.grantWord (chargeNear u) c a fa v fhold else Machine.waitWord u c v) :=
    kept_ite (fun _ => K.grantWord c a fa v fhold (K.charge hu)) (K.waitWord c v hu)
  unfold Machine.requestWord
  split
  · exact K.waitWord c v h
  · exact h
  · exact kept_ite (fun _ => K.grantWord c a fa v fhold h) (arbitrated (K.closeRun h))
  · exact arbitrated h
  · exact arbitrated (K.free h rfl rfl)

theorem Kept.nearWord (v : Word) (fhold : Bool) (h : P s) : P (nearWord s v fhold) := by
  unfold Machine.nearWord
  split
  · exact h
  · rename_i c _
    refine kept_ite (fun _ => h) (kept_ite (fun _ => K.finishWord (K.dataOut c.dir _ h)) ?_)
    split
    · exact kept_ite (fun _ => h) (K.transferWord _ _ v h)
    · simp only
      split
      · exact K.finishWord (K.closeRun (K.fault _ _ _ h))
      · exact K.waitWord c v (K.closeRun h)
      · exact K.requestWord c _ _ v fhold h
      · exact K.requestWord c _ _ v fhold h

theorem Kept.beginCycle (c : NearCycle) (h : P s) : P (beginCycle s c) := by
  unfold Machine.beginCycle
  refine kept_ite (fun _ => ?_) ?_ <;> exact kept_ite (fun _ => K.free h rfl rfl) h

theorem Kept.endCycle (h : P s) : P (endCycle s) := by
  unfold Machine.endCycle
  refine kept_ite (fun _ => ?_) (K.free h rfl rfl)
  simp only
  split <;> exact K.free h rfl rfl

/-! ### The far port -/

theorem Kept.grantPart (a : Access) (h : P s) : P (grantPart s a) :=
  K.free (K.hold (Nat.zero_le _) (K.streak h)) rfl rfl

theorem Kept.grantWork (h : P s) : P (grantWork s) := by
  unfold Machine.grantWork
  split
  · refine kept_ite (fun waits => K.grantPart _ (K.requests (s := s) ?_ h)) h
    intro halted
    simp [State.shortWaits, halted] at waits
  · split
    · refine kept_ite (fun waits => K.grantPart _ (K.requests (s := s) ?_ h)) h
      intro halted
      simp [State.copyWaits, halted] at waits
    · exact h

theorem Kept.grantNear (h : P s) : P (grantNear s) := by
  unfold Machine.grantNear
  split
  · exact K.grantWord _ _ _ _ _ (K.charge h)
  · exact h

theorem Kept.grantPort (h : P s) : P (grantPort s) := by
  have open_ : P { s with fsp.port := .free } := K.free h rfl rfl
  unfold Machine.grantPort
  refine kept_ite (fun _ => ?_) h
  simp only
  split
  · exact K.grantPart _ (K.free h rfl rfl)
  · exact kept_ite (fun _ => K.settle (K.grantNear open_)) (K.grantWork open_)

theorem Kept.takeIntegrity (c : FaultCause) (p : Option Path) (i : Option Nat) (h : P s) : P (takeIntegrity s c p i) := by
  unfold Machine.takeIntegrity
  simp only
  split
  · rename_i active
    exact K.halt (fun halted => nomatch active.symm.trans halted) (K.fault _ _ _ h)
  · rename_i starting
    exact K.halt (fun halted => nomatch starting.symm.trans halted) (K.fault _ _ _ h)
  · exact K.fault _ _ _ h
  · exact K.fault _ _ _ h

theorem Kept.partTimeout (a : Access) (h : P s) : P (partTimeout s a) := by
  have faulted := K.fault .farTimeout a.path a.slot h
  exact kept_ite (fun _ => K.takeIntegrity _ _ _ h) (kept_ite (fun _ => K.takeIntegrity _ _ _ h)
    (kept_ite (fun _ => faulted) (K.free faulted rfl rfl)))

theorem Kept.killCycle (w : NearFlight) (h : P s) : P (killCycle s w) :=
  K.finishWord (K.free (K.dataOut w.dir 0xFFFF h) rfl rfl)

theorem Kept.holdLimit (h : P s) : P (holdLimit s) := by
  have limited : P { s with fsp.port := .free, fsp.holdTimer := Config.farHoldLimit } :=
    K.free (K.hold (n := Config.farHoldLimit) (Nat.le_refl _) h) rfl rfl
  unfold Machine.holdLimit
  split
  · exact h
  · exact h
  · exact K.fault _ _ _ (K.killCycle _ limited)
  · exact K.fault _ _ _ limited
  · exact K.partTimeout _ limited

theorem Kept.completeAccess (k : AccessKind) (act : State → Access → State) (h : P s)
    (acts : ∀ u a, u.pcf.part ≠ .halted → P u → P (act u a)) : P (completeAccess s k act) := by
  unfold Machine.completeAccess
  split
  · exact h
  · rename_i a _
    have open_ : P { s with fsp.port := .free } := K.free h rfl rfl
    refine kept_ite (fun applies => acts _ a ?_ open_) open_
    intro halted
    have part : s.pcf.part = .halted := halted
    simp [State.applies, part] at applies

/-! ### Timers and lines -/

theorem Kept.heartbeatEnd (h : P s) : P (heartbeatEnd s) := by
  have rest {u : State} (hu : P u) :
      P { clearMark (clearMark u .fibre) .radio with
        pmn.beat := 0, pmn.beatLen := (clearMark (clearMark u .fibre) .radio).sdc.settings.timing.heartbeat } :=
    K.free hu rfl rfl
  exact rest (K.judge .radio (K.settle (K.judge .fibre h)))

theorem Kept.lineFalls (p : Path) (h : P s) : P (lineFalls s p) := by
  have set : P (setLine s p (.falling 0)) := K.free h (by cases p <;> rfl) rfl
  unfold Machine.lineFalls
  split
  · exact kept_ite (fun _ => K.confirm p set) set
  · exact h
  · exact h

theorem Kept.lineRises (p : Path) (h : P s) : P (lineRises s p) := by
  have set : P (setLine s p .good) := K.free h (by cases p <;> rfl) rfl
  unfold Machine.lineRises
  split
  · exact h
  · exact set
  · exact K.trial p set

theorem Kept.moveLine (p : Path) (level : Bool) (h : P s) : P (moveLine s p level) := by
  have moved : P { s with lines := s.lines.setLevel p level } := K.free h rfl rfl
  exact kept_ite (fun _ => h) (kept_ite (fun _ => K.settle (kept_ite (fun _ => K.lineRises p moved) (K.lineFalls p moved)))
    moved)

theorem Kept.mainsFalls (h : P s) : P (mainsFalls s) := by
  have falling : P { s with umt.mains := .falling 0 } := K.free h rfl rfl
  unfold Machine.mainsFalls
  split
  · exact kept_ite (fun _ => K.mainsAbsent falling) falling
  · exact h
  · exact h

theorem Kept.mainsRises (h : P s) : P (mainsRises s) := by
  have present : P { s with umt.mains := .present } := K.free h rfl rfl
  unfold Machine.mainsRises
  split
  · exact h
  · exact present
  · exact K.regime present

theorem Kept.moveMains (level : Bool) (h : P s) : P (moveMains s level) := by
  have moved : P { s with lines.mains := level } := K.free h rfl rfl
  exact kept_ite (fun _ => h) (kept_ite (fun _ => K.settle (kept_ite (fun _ => K.mainsRises moved) (K.mainsFalls moved))) moved)

/-! ### Setting cycles -/

theorem Kept.refuse (c : RefusalCause) (tag : Tag) (addr : Addr) (dir : Dir) (h : P s) : P (refuse s c tag addr dir) :=
  K.dataOut dir 0 (K.free (K.fault .settingRefused none none h) rfl rfl)

theorem Kept.readCycle (tag : Tag) (addr : Addr) (h : P s) : P (readCycle s tag addr) := by
  have ended : P { s with nsi.near := none } := K.free h rfl rfl
  have latched (u : State) (g i x : Nat) (hu : P u) : P (takeReadEffect u g i x) := by
    unfold takeReadEffect
    split
    · exact K.free hu rfl rfl
    · exact kept_ite (fun _ => K.free hu rfl rfl) hu
    · exact kept_ite (fun _ => K.free hu rfl rfl) hu
    · exact kept_ite (fun _ => K.free hu rfl rfl) hu
    · exact kept_ite (fun _ => K.free hu rfl rfl) hu
    · exact kept_ite (fun _ => K.free hu rfl rfl) hu
    · exact hu
  unfold Machine.readCycle
  refine kept_ite (fun _ => kept_ite (fun _ => K.free h rfl rfl) ?_) h
  split
  · exact K.refuse _ _ _ _ ended
  · exact K.free (latched _ _ _ _ ended) rfl rfl

theorem Kept.burstCycle (tag : Tag) (addr : Addr) (dir : Dir) (h : P s) : P (burstCycle s tag addr dir) := by
  have ended : P { s with nsi.near := none } := K.free h rfl rfl
  exact kept_ite (fun _ => kept_ite (fun _ => K.dataOut dir 0 ended) (K.refuse _ _ _ _ ended)) h

theorem Kept.writeCycle (tag : Tag) (addr : Addr) (v : Word) (owner : State → Option RefusalCause) (take : State → State)
    (h : P s) (takes : ∀ u, judgeWrite u tag addr v = none → owner u = none → P u → P (take u)) :
    P (writeCycle s tag addr v owner take) := by
  have ended : P { s with nsi.near := none } := K.free h rfl rfl
  unfold Machine.writeCycle
  refine kept_ite (fun _ => kept_ite (fun _ => ended) ?_) h
  split
  · exact K.refuse _ _ _ _ ended
  · rename_i judged
    split
    · exact K.refuse _ _ _ _ ended
    · rename_i owned
      exact takes _ judged owned ended

/-! ### Taken settings -/

omit K in
theorem storeMetering_other (m : Metering) (v : Nat) {i : Nat} (other : i ≠ 5) :
    (storeMetering m i v).ceiling = m.ceiling := by
  unfold storeMetering
  split
  · rfl
  · rfl
  · rfl
  · rfl
  · rfl
  · exact absurd rfl other
  · rfl

theorem Kept.afterTiming (i : Nat) (h : P s) : P (afterTiming s i) := by
  have stalled {u : State} (p : Path) (hu : P u) : P (Machine.expireIf (u.stallDue p) (fun t => stallExpires t p) u) :=
    K.expireIf _ _ hu fun _ => K.stall p hu
  unfold Machine.afterTiming
  split
  · exact K.expireIf _ _ h fun _ => K.confirm _ h
  · exact K.expireIf _ _ h fun _ => K.confirm _ h
  · exact stalled .radio (stalled .fibre (K.syncTimers h))
  · exact K.expireIf _ _ h fun _ => K.quiet _ h
  · exact K.expireIf _ _ h fun _ => K.quiet _ h
  · exact K.expireIf _ _ h fun _ => K.wait h
  · exact h

theorem Kept.afterRadio (i : Nat) (h : P s) : P (afterRadio s i) := by
  unfold Machine.afterRadio
  split
  · exact K.expireIf _ _ h fun due => K.attach (Option.isSome_iff_ne_none.mp (reached_isSome due)) h
  · exact kept_ite (fun due => K.powerOff (Option.isSome_iff_ne_none.mp (reached_isSome due)) h) h
  · exact kept_ite (fun _ => K.stopKeep h) h
  · exact K.expireIf _ _ h fun _ => K.mainsAbsent h
  · exact h

theorem Kept.takeStandby (v : Word) (h : P s) : P (takeStandby v s) := by
  have stored : P { s with sdc.settings.radio.standby := standbyOf v.toNat } := K.free h rfl rfl
  unfold Machine.takeStandby
  refine kept_ite (fun _ => h) ?_
  simp only
  split
  · exact K.settle (kept_ite (fun _ => K.startKeep stored) (K.standby stored))
  · exact K.settle (K.stopKeep stored)

theorem Kept.takeMetering (i : Nat) (x : BitVec 8) (v : Word) (preset : i = 6 → s.pcf.part = .config) (h : P s) :
    P (takeMetering i x v s) := by
  have stored (j : Nat) (hj : j ≠ 5) : P { s with
      sdc.settings.metering := storeMetering s.sdc.settings.metering j v.toNat } := by
    refine K.free h ?_ rfl
    simp only [State.core, storeMetering_other s.sdc.settings.metering v.toNat hj]
  unfold Machine.takeMetering
  split
  · exact K.settle (K.regime (stored 0 (by decide)))
  · exact K.settle (K.regime (stored 1 (by decide)))
  · exact K.ceiling v h
  · have config := preset rfl
    unfold takePreset
    refine K.regime (kept_ite (fun _ => ?_) ?_)
    · exact K.meters _ s.umt.rx (.inr config) h
    · exact K.meters s.umt.tx _ (.inr config) h
  · rename_i _ _ ceiling _
    exact kept_ite (fun _ => K.expireIf _ _ (stored i ceiling) fun _ => K.refill (stored i ceiling)) (stored i ceiling)

theorem Kept.takeCommand (i : Nat) (v : Word) (reconfigure : i = 2 → reconfigureRefusal s = none → P (takeReconfigure s))
    (taken : commandRefusal i v s = none) (h : P s) : P (takeCommand i v s) := by
  unfold Machine.takeCommand
  split
  · exact K.start taken h
  · exact K.halt (fun halted => by simp [commandRefusal, haltRefusal, halted] at taken) h
  · exact reconfigure rfl taken
  · exact K.force v taken h
  · exact K.failbackNow taken h
  · exact K.failbackMode v h
  · exact K.radioRestart taken h
  · exact K.settle (K.regime (K.meters 0 0 (.inl ⟨Nat.zero_le _, Nat.zero_le _⟩) h))
  · exact K.free h rfl rfl
  · exact K.clearFaults h
  · exact K.free h rfl rfl
  · exact h

theorem Kept.takeSetting {tag : Tag} {addr : Addr} {v : Word}
    (reconfigure : settingGroup addr = 6 → settingItem addr = 2 → reconfigureRefusal s = none → P (takeReconfigure s))
    (judged : judgeWrite s tag addr v = none) (owned : settingRefusal addr v s = none) (h : P s) :
    P (takeSetting addr v s) := by
  unfold Machine.takeSetting
  simp only
  split
  · rename_i g
    exact K.bus _ (judgeWrite_configOnly judged (by simp [configOnly, g])) h
  · rename_i g
    exact K.resize _ _ (judgeWrite_configOnly judged (by simp [configOnly, g])) h
  · exact K.free h rfl rfl
  · exact K.afterTiming _ (K.free h rfl rfl)
  · exact kept_ite (fun _ => K.takeStandby v h) (K.afterRadio _ (K.free h rfl rfl))
  · rename_i g
    exact K.takeMetering _ _ v (fun i => judgeWrite_configOnly judged (by simp [configOnly, g, i])) h
  · rename_i g
    have command : commandRefusal (settingItem addr).toNat v s = none := (if_pos g).symm.trans owned
    exact K.takeCommand _ v (fun i => reconfigure (BitVec.eq_of_toNat_eq g) (BitVec.eq_of_toNat_eq i)) command h
  · exact h

end

/-! ### Every command -/

/-- A setting write of any row is the write cycle of its address (R172, R177). -/
theorem exec_setting {c : Instr} {tag : Tag} {addr : Addr} {v : Word} (h : writeOf c = some (tag, addr, v)) (s : State) :
    exec c s = .next (writeCycle s tag addr v (settingRefusal addr v) (takeSetting addr v)) := by
  have row (g i : BitVec 4) (x : BitVec 8) (owner : State → Option RefusalCause) (take : State → State)
      (ho : settingRefusal (settingAddr g i x) v = owner) (ht : takeSetting (settingAddr g i x) v = take) :
      writeCycle s tag (settingAddr g i x) v (settingRefusal (settingAddr g i x) v) (takeSetting (settingAddr g i x) v) =
        writeCycle s tag (settingAddr g i x) v owner take := by rw [ho, ht]
  have plain (g i : BitVec 4) (x : BitVec 8) (other : g ≠ 6) : settingRefusal (settingAddr g i x) v = noRefusal := by
    funext u
    have differ : ¬ g.toNat = 6 := fun e => other (BitVec.eq_of_toNat_eq e)
    simp only [settingRefusal, settingGroup_settingAddr, differ, if_false, noRefusal]
  have command (i : BitVec 4) (x : BitVec 8) :
      settingRefusal (settingAddr 6 i x) v = commandRefusal i.toNat v ∧
        takeSetting (settingAddr 6 i x) v = takeCommand i.toNat v := by
    constructor
    · funext u
      simp only [settingRefusal, settingGroup_settingAddr, settingItem_settingAddr]
      rfl
    · funext u
      simp only [takeSetting, settingGroup_settingAddr, settingItem_settingAddr]
      rfl
  have metering (i : BitVec 4) (x : BitVec 8) : takeSetting (settingAddr 5 i x) v = takeMetering i.toNat x v := by
    funext u
    simp only [takeSetting, settingGroup_settingAddr, settingItem_settingAddr, settingIndex_settingAddr]
    rfl
  have standby (x : BitVec 8) : takeSetting (settingAddr 4 0 x) v = takeStandby v := by
    funext u
    simp only [takeSetting, settingGroup_settingAddr, settingItem_settingAddr]
    rfl
  have commanded (i : BitVec 4) (x : BitVec 8) (owner : State → Option RefusalCause) (take : State → State)
      (ho : commandRefusal i.toNat v = owner) (ht : takeCommand i.toNat v = take) :=
    (row 6 i x owner take ((command i x).1.trans ho) ((command i x).2.trans ht)).symm
  have met (i : BitVec 4) (x : BitVec 8) (take : State → State) (ht : takeMetering i.toNat x v = take) :=
    (row 5 i x noRefusal take (plain 5 i x (by decide)) ((metering i x).trans ht)).symm
  cases c <;> try cases h
  case settingWrite => rfl
  case standbyPolicySetting x => exact congrArg _ (row 4 0 x _ _ (plain 4 0 x (by decide)) (standby x)).symm
  case capSetting cap t x w => cases cap <;> cases h <;> exact congrArg _ (met _ x _ rfl)
  case poolCeilingSetting x => exact congrArg _ (met 5 x _ rfl)
  case meterPreset x => exact congrArg _ (met 6 x _ rfl)
  case start x => exact congrArg _ (commanded 0 x _ _ rfl rfl)
  case halt x => exact congrArg _ (commanded 1 x _ _ rfl rfl)
  case reconfigure x => exact congrArg _ (commanded 2 x _ _ rfl rfl)
  case forcePath x => exact congrArg _ (commanded 3 x _ _ rfl rfl)
  case failbackNow x => exact congrArg _ (commanded 4 x _ _ rfl rfl)
  case failbackMode x => exact congrArg _ (commanded 5 x _ _ rfl rfl)
  case radioRestart x => exact congrArg _ (commanded 6 x _ _ rfl rfl)
  case periodRestart x => exact congrArg _ (commanded 7 x _ _ rfl rfl)
  case clearAlerts x => exact congrArg _ (commanded 8 x _ _ rfl rfl)
  case clearFaults x => exact congrArg _ (commanded 9 x _ _ rfl rfl)
  case alertEnable x => exact congrArg _ (commanded 10 x _ _ rfl rfl)

/-- A setting write takes what its address names, or refuses it (R176). -/
theorem Kept.exec_setting {P : State → Prop} (K : Kept P) {c : Instr} {tag : Tag} {addr : Addr} {v : Word} {s t : State}
    (write : writeOf c = some (tag, addr, v))
    (reconfigure : settingGroup addr = 6 → settingItem addr = 2 → ∀ u, reconfigureRefusal u = none → P u →
      P (takeReconfigure u))
    (h : P s) (e : exec c s = .next t) : P t := by
  rw [Machine.exec_setting write] at e
  injection e with e
  subst e
  exact K.writeCycle tag addr v _ _ h fun u judged owned hu =>
    K.takeSetting (fun g i refusal => reconfigure g i u refusal hu) judged owned hu

/-- A command that answers a next state by a function that keeps the predicate. -/
theorem kept_next {P : State → Prop} {t u : State} (e : Host.Outcome.next (φ := Fault) (ρ := Refusal) u = .next t)
    (h : P u) : P t := by
  injection e with e
  exact e ▸ h

/-- Every command but a setting write and the reset line. -/
theorem Kept.exec_plain {P : State → Prop} (K : Kept P) {c : Instr} {s t : State} (plain : writeOf c = none)
    (steady : movesReset c = false) (h : P s) (e : exec c s = .next t) : P t := by
  have written {tag : Tag} {addr : Addr} {v : Word} {Q : Prop} (w : some (tag, addr, v) = none) : Q := nomatch w
  cases c with
  | resetAssert => exact nomatch steady
  | resetRelease => exact nomatch steady
  | settleEnd => exact kept_next e (K.free h rfl rfl)
  | nearCycleBegin addr dir burst tag cfgn msetn => exact kept_next e (K.beginCycle _ h)
  | nearWordGrant data fhold => exact kept_next e (kept_ite (fun _ => K.settle (K.nearWord data fhold h)) h)
  | selRise => exact kept_next e (K.endCycle h)
  | settingBurst tag addr dir => exact kept_next e (K.burstCycle tag addr dir h)
  | settingWrite => exact written plain
  | standbyPolicySetting => exact written plain
  | capSetting cap => cases cap <;> exact written plain
  | poolCeilingSetting => exact written plain
  | meterPreset => exact written plain
  | start => exact written plain
  | halt => exact written plain
  | reconfigure => exact written plain
  | forcePath => exact written plain
  | failbackNow => exact written plain
  | failbackMode => exact written plain
  | radioRestart => exact written plain
  | periodRestart => exact written plain
  | clearAlerts => exact written plain
  | clearFaults => exact written plain
  | alertEnable => exact written plain
  | meterSnapshotRead tag => exact kept_next e (K.readCycle _ _ h)
  | summaryLatchRead tag => exact kept_next e (K.readCycle _ _ h)
  | uptimeLatchRead tag => exact kept_next e (K.readCycle _ _ h)
  | faultRecordLatchRead sel tag => exact kept_next e (K.readCycle _ _ h)
  | alertPendingRead tag x => exact kept_next e (K.readCycle _ _ h)
  | refusedSettingRead tag addr => exact kept_next e (K.readCycle _ _ h)
  | farGrant => exact kept_next e (kept_ite (fun _ => K.syncStreak (K.grantPort h)) h)
  | farHoldLimit => exact kept_next e (K.holdLimit h)
  | placementReadComplete words => exact kept_next e (K.completeAccess _ _ h fun _ a running => K.readDone words a running)
  | publication => exact kept_next e (K.completeAccess _ _ h fun _ a running => K.copyDone a running)
  | withdrawalWriteComplete =>
    exact kept_next e (K.completeAccess _ _ h fun _ a running => K.withdrawalDone a running)
  | mirrorWriteComplete => exact kept_next e (K.completeAccess _ _ h fun _ a running => K.serviceWriteDone a running)
  | finalWriteComplete => exact kept_next e (K.completeAccess _ _ h fun _ a running => K.serviceWriteDone a running)
  | headerWriteComplete => exact kept_next e (K.completeAccess _ _ h fun _ _ _ hu => hu)
  | startReadComplete v => exact kept_next e (K.completeAccess _ _ h fun _ a running => K.startReadDone v a running)
  | startWriteComplete => exact kept_next e (K.completeAccess _ _ h fun _ a running => K.startWriteDone a running)
  | lineChange p level => exact kept_next e (K.moveLine p level h)
  | confirmTimerExpiry p => exact kept_next e (K.expiry _ _ h fun _ => K.confirm p h)
  | heartbeatIntervalEnd => exact kept_next e (K.expiry _ _ h fun _ => K.heartbeatEnd h)
  | stallTimerExpiry p => exact kept_next e (K.expiry _ _ h fun _ => K.stall p h)
  | attachTimerExpiry => exact kept_next e (K.expiry _ _ h fun runs => K.attach (Option.isSome_iff_ne_none.mp runs) h)
  | powerOffTimerExpiry =>
    exact kept_next e (kept_ite (fun runs => K.powerOff (Option.isSome_iff_ne_none.mp (Bool.and_eq_true_iff.mp runs).2) h) h)
  | keepTimerExpiry => exact kept_next e (kept_ite (fun _ => K.stopKeep h) h)
  | flapExpiry => exact kept_next e (kept_ite (fun _ => K.flaps h) h)
  | deferralExpiry => exact kept_next e (kept_ite (fun _ => K.ages h) h)
  | quietTimerExpiry a => exact kept_next e (K.expiry _ _ h fun _ => K.quiet a h)
  | failbackWaitExpiry => exact kept_next e (K.expiry _ _ h fun _ => K.wait h)
  | mainsChange level => exact kept_next e (K.moveMains level h)
  | mainsConfirmExpiry => exact kept_next e (K.expiry _ _ h fun _ => K.mainsAbsent h)
  | creditRefill => exact kept_next e (K.expiry _ _ h fun _ => K.refill h)

/-- A predicate that every command and the reset line keep is kept by every step. -/
theorem Kept.step {P : State → Prop} (K : Kept P) (reset : ∀ l q, P (State.lowReset l q))
    (released : ∀ l q, P (State.released l q))
    (reconfigure : ∀ u, reconfigureRefusal u = none → P u → P (takeReconfigure u)) {s t : State} (h : P s)
    (e : step s = .next t) : P t := by
  have commands {c : Instr} {s : State} (h : P s) (e : exec c s = .next t) : P t := by
    by_cases moves : movesReset c = true
    · rcases (Bool.or_eq_true_iff.mp moves).imp of_decide_eq_true of_decide_eq_true with rfl | rfl
      · exact kept_next e (kept_ite (fun _ => reset _ _) h)
      · exact kept_next e (kept_ite (fun _ => h) (K.free (released s.lines s.pending) rfl rfl))
    · cases write : writeOf c with
      | none => exact K.exec_plain write (Bool.eq_false_iff.mpr moves) h e
      | some w => exact K.exec_setting write (fun _ _ => reconfigure) h e
  cases queue : s.pending with
  | cons c rest =>
    rw [stepRunsFrontCommand c rest s queue] at e
    exact commands (s := { s with pending := rest }) (K.free h rfl rfl) e
  | nil =>
    rw [step_idle queue] at e
    cases rstn : s.rstn with
    | false =>
      rw [idleStep_low rstn] at e
      exact kept_next e h
    | true =>
      cases due : s.due with
      | some c =>
        rw [idleStep_due rstn due] at e
        exact commands h e
      | none =>
        rw [idleStep_tick rstn due] at e
        exact kept_next e (K.tick h)

end Sys2Proof.Machine

/-! SUPPORT. Bounds of the counts, lists, pool and timers through the engine, the slot map and the receive merge unit, which
leave the service path, the health of the paths and the radio's power as they were. -/

namespace Sys2Proof.Machine

/-! ### The bounds -/

/-- The counts of a path record are within their bounds. -/
structure PathRecord.Counted (r : PathRecord) : Prop where
  trial : r.trial ≤ 255
  silence : r.silence ≤ 255
  downs : r.downs ≤ 65535
  trials : r.trials ≤ 65535

/-- The four counts of faults are within their bounds. -/
structure FaultCounts.Counted (c : FaultCounts) : Prop where
  notice : c.notice ≤ 255
  path : c.path ≤ 255
  transfer : c.transfer ≤ 255
  integrity : c.integrity ≤ 255

/-- `State.Bounded` but for the migration list. -/
structure State.Counted (s : State) : Prop where
  pool : s.umt.pool ≤ s.sdc.settings.metering.ceiling
  deferral : s.ple.deferralQ.length ≤ 64
  arrivals : s.rmu.arrivals.length ≤ 32
  flaps : s.pmn.flaps.length ≤ 15
  retry : s.pmn.power.retry ≤ 8
  fibre : s.pmn.recs.fibre.Counted
  radio : s.pmn.recs.radio.Counted
  streak : s.fsp.streak ≤ 4
  hold : s.fsp.holdTimer ≤ 256
  failovers : s.swc.failovers ≤ 65535
  failbacks : s.swc.failbacks ≤ 65535
  faults : s.pcf.counts.Counted
  sub : s.clock.sub < 1024

theorem State.Counted.record {s : State} (h : s.Counted) (p : Path) : (s.pathRec p).Counted := by
  cases p
  · exact h.fibre
  · exact h.radio

theorem bounded_iff (s : State) : s.Bounded ↔ s.Listed ∧ s.Counted := by
  constructor
  · intro h
    have record (p : Path) : (s.pathRec p).Counted := ⟨h.trial p, h.silence p, h.downs p, h.trials p⟩
    exact ⟨⟨h.migration, h.config⟩, { h with
      fibre := record .fibre, radio := record .radio, faults := ⟨h.notices, h.paths, h.transfers, h.integrities⟩ }⟩
  · rintro ⟨listed, h⟩
    exact { h with
      migration := listed.short, config := listed.config
      trial := fun p => (h.record p).trial, silence := fun p => (h.record p).silence
      downs := fun p => (h.record p).downs, trials := fun p => (h.record p).trials
      notices := h.faults.notice, paths := h.faults.path, transfers := h.faults.transfer
      integrities := h.faults.integrity }

theorem FaultCounts.Counted.bump {c : FaultCounts} (h : c.Counted) (cls : FaultClass) : (c.bump cls).Counted := by
  cases cls
  · exact { h with notice := satInc_le _ _ }
  · exact { h with path := satInc_le _ _ }
  · exact { h with transfer := satInc_le _ _ }
  · exact { h with integrity := satInc_le _ _ }

theorem State.Counted.setRec {s : State} (h : s.Counted) (p : Path) {r : PathRecord} (hr : r.Counted) :
    (setRec s p r).Counted := by
  cases p
  · exact { h with fibre := hr }
  · exact { h with radio := hr }

/-! ### What the units keep -/

/-- A path record as the bounds read it, with its health. -/
def State.service (s : State) : (PartState × Option Path × SwitchState) × (PowerPhase × Timer × Timer) × Health × Health :=
  ((s.pcf.part, s.swc.service, s.swc.state), (s.pmn.power.phase, s.pmn.power.attach, s.pmn.power.off),
    s.pmn.recs.fibre.health, s.pmn.recs.radio.health)

/-- The service path, the switch state, the health of the paths and the radio's power are as they were, and the bounds
hold on. -/
structure Calm (s t : State) : Prop where
  service : t.service = s.service
  counted : s.Counted → t.Counted

/-- What the bounds and the service path's soundness read. -/
def State.calmView (s : State) : (PartState × FaultCounts × Nat) × (Nat × Nat) ×
    ((PowerPhase × Timer × Timer × Nat) × (Health × Nat × Nat × Nat × Nat) × (Health × Nat × Nat × Nat × Nat) ×
      List (BitVec 32)) ×
    (Option Path × SwitchState × Nat × Nat) × (Nat × Nat) × (Nat × Nat) :=
  ((s.pcf.part, s.pcf.counts, s.clock.sub), (s.ple.deferralQ.length, s.rmu.arrivals.length),
    ((s.pmn.power.phase, s.pmn.power.attach, s.pmn.power.off, s.pmn.power.retry), s.pmn.recs.fibre.counted,
      s.pmn.recs.radio.counted, s.pmn.flaps),
    (s.swc.service, s.swc.state, s.swc.failovers, s.swc.failbacks), (s.umt.pool, s.sdc.settings.metering.ceiling),
    (s.fsp.streak, s.fsp.holdTimer))

theorem PathRecord.Counted.of_counted {q r : PathRecord} (h : r.Counted) (same : q.counted = r.counted) : q.Counted := by
  simp only [PathRecord.counted, Prod.mk.injEq] at same
  obtain ⟨-, trial, silence, downs, trials⟩ := same
  exact ⟨trial ▸ h.trial, silence ▸ h.silence, downs ▸ h.downs, trials ▸ h.trials⟩

theorem PathRecord.health_of_counted {q r : PathRecord} (same : q.counted = r.counted) : q.health = r.health :=
  congrArg Prod.fst same

theorem Calm.of_view {s t : State} (same : t.calmView = s.calmView) : Calm s t := by
  simp only [State.calmView, Prod.mk.injEq] at same
  obtain ⟨⟨part, counts, sub⟩, ⟨deferral, arrivals⟩, ⟨⟨phase, attach, off, retry⟩, fibre, radio, flaps⟩,
    ⟨service, state, failovers, failbacks⟩, ⟨pool, ceiling⟩, streak, hold⟩ := same
  constructor
  · simp only [State.service, part, service, state, phase, attach, off, PathRecord.health_of_counted fibre,
      PathRecord.health_of_counted radio]
  · intro h
    exact
      { pool := pool ▸ ceiling ▸ h.pool
        deferral := deferral ▸ h.deferral
        arrivals := arrivals ▸ h.arrivals
        flaps := flaps ▸ h.flaps
        retry := retry ▸ h.retry
        fibre := h.fibre.of_counted fibre
        radio := h.radio.of_counted radio
        streak := streak ▸ h.streak
        hold := hold ▸ h.hold
        failovers := failovers ▸ h.failovers
        failbacks := failbacks ▸ h.failbacks
        faults := counts ▸ h.faults
        sub := sub ▸ h.sub }

theorem Calm.refl (s : State) : Calm s s := ⟨rfl, id⟩

theorem Calm.trans {s t u : State} (h : Calm s t) (k : Calm t u) : Calm s u :=
  ⟨k.service.trans h.service, k.counted ∘ h.counted⟩

/-- A calm change of a state that reads as the first does. -/
theorem Calm.from_view {s t u : State} (k : Calm t u) (same : t.calmView = s.calmView) : Calm s u :=
  (Calm.of_view same).trans k

theorem takeFault_calm (s : State) (c : FaultCause) (p : Option Path) (i : Option Nat) : Calm s (takeFault s c p i) :=
  ⟨rfl, fun h => { h with faults := h.faults.bump _ }⟩

/-! ### The engine -/

theorem skipEntry_calm (s : State) (i : Nat) (st : Status) : Calm s (skipEntry s i st) := .of_view rfl

theorem endOp_calm (s : State) (b : Option Cls) : Calm s (endOp s b) := by
  unfold endOp
  split
  · exact .refl s
  · split
    · exact .of_view rfl
    · exact .of_view rfl
    · split
      · split <;> exact .of_view rfl
      · exact .of_view rfl

theorem deferEntry_calm (s : State) (i : Nat) : Calm s (deferEntry s i) := by
  unfold deferEntry
  simp only
  split
  · rename_i room
    refine ⟨rfl, fun h => { h with deferral := ?_ }⟩
    show (insertBy _ _ s.ple.deferralQ).length ≤ 64
    rw [length_insertBy]
    exact room
  · exact (skipEntry_calm s i 10).trans (takeFault_calm _ _ _ _)

theorem abandonOp_calm (s : State) : Calm s (abandonOp s) := by
  unfold abandonOp
  split
  · exact .refl s
  · exact (endOp_calm _ none).from_view rfl

theorem claimEngine_calm (s : State) : Calm s (claimEngine s) := by
  have abandoned (t : State) (h : Calm s t) :
      Calm s (match t.ple.op with
        | some o => if o.phase = .waiting then abandonOp t else t
        | none => t) := by
    split
    · split
      · exact h.trans (abandonOp_calm t)
      · exact h
    · exact h
  unfold claimEngine
  apply abandoned
  split
  · exact .of_view rfl
  · split <;> exact .of_view rfl

theorem creditAndRing_calm (s : State) (o : Operation) : Calm s (creditAndRing s o) := by
  unfold creditAndRing
  simp only
  split
  · exact (deferEntry_calm s o.slot).trans (endOp_calm _ _)
  · split
    · exact ⟨rfl, fun h => { h with pool := Nat.le_trans (Nat.sub_le _ _) h.pool }⟩
    · split
      · exact abandonOp_calm s
      · exact .of_view rfl

theorem decideOp_calm (s : State) (o : Operation) : Calm s (decideOp s o) := by
  have deferred (b : Option Cls) : Calm s (endOp (deferEntry s o.slot) b) :=
    (deferEntry_calm s o.slot).trans (endOp_calm _ b)
  unfold decideOp
  simp only
  split
  · exact creditAndRing_calm s o
  · split
    · exact ((skipEntry_calm s o.slot 11).trans (takeFault_calm _ _ _ _)).trans (endOp_calm _ none)
    · split
      · split
        · exact abandonOp_calm s
        · exact deferred _
      · split
        · exact creditAndRing_calm s o
        · exact deferred _
        · exact (skipEntry_calm s o.slot 8).trans (endOp_calm _ none)

theorem takeRead_calm (s : State) (i : Nat) (d : Descriptor) : Calm s (takeRead s i d) := .of_view rfl

theorem removeRecord_calm (s : State) (i : Nat) : Calm s (removeRecord s i) :=
  ⟨rfl, fun h => { h with deferral := Nat.le_trans (List.length_filter_le _ _) h.deferral }⟩

theorem beginOp_calm (s : State) (i : Nat) (k : OpKind) (p : Path) : Calm s (beginOp s i k p) := .of_view rfl

theorem scanStep_calm (s : State) (c : Scan) (p : Path) : Calm s (scanStep s c p) := by
  have removed (k : Scan) (i : Nat) : Calm s (removeRecord { s with ple.scan := some k } i) :=
    (removeRecord_calm _ i).from_view rfl
  unfold scanStep
  split
  · exact .of_view rfl
  · simp only
    split
    · exact .of_view rfl
    · split
      · exact (removed _ _).trans (skipEntry_calm _ _ 8)
      · exact .of_view rfl
      · split
        · exact .of_view rfl
        · exact (removed _ _).trans (beginOp_calm _ _ _ _)

theorem engineStep_calm (s t : State) (h : engineStep s = some t) : Calm s t := by
  unfold engineStep at h
  split at h
  · split at h
    · injection h with h
      exact h ▸ scanStep_calm s _ _
    · split at h
      · injection h with h
        exact h ▸ .of_view rfl
      · split at h
        · split at h
          · injection h with h
            exact h ▸ (removeRecord_calm s _).trans (beginOp_calm _ _ _ _)
          · split at h
            · cases h
            · injection h with h
              exact h ▸ .of_view rfl
        · injection h with h
          exact h ▸ .of_view rfl
        · cases h
  · cases h

theorem runEngine_calm (n : Nat) (s : State) : Calm s (runEngine n s) := by
  induction n generalizing s with
  | zero => exact .refl s
  | succ n ih =>
    unfold runEngine
    split
    · exact .refl s
    · rename_i t h
      exact (engineStep_calm s t h).trans (ih t)

theorem settleEngine_calm (s : State) : Calm s (settleEngine s) := runEngine_calm _ s

theorem prompt_calm (s : State) : Calm s (prompt s) := by
  unfold prompt
  split
  · split <;> exact .of_view rfl
  · exact .refl s

theorem examine_calm (s : State) (m : MigrationItem) (rest : List MigrationItem) : Calm s (examine s m rest) := by
  unfold examine
  simp only
  split <;> exact .of_view rfl

/-! ### The usage meter -/

theorem computeRegime_calm (s : State) : Calm s (computeRegime s) := by
  unfold computeRegime
  split
  · exact .refl s
  · exact (prompt_calm _).from_view rfl

theorem meterTx_calm (s : State) (n : Nat) : Calm s (meterTx s n) := (computeRegime_calm _).from_view rfl

theorem meterRx_calm (s : State) (n : Nat) : Calm s (meterRx s n) := (computeRegime_calm _).from_view rfl

theorem refill_calm (s : State) : Calm s (refill s) := by
  have refilled : Calm s { s with
      umt.pool := min (s.umt.pool + s.sdc.settings.metering.amount) s.sdc.settings.metering.ceiling
      umt.refill := 0 } := ⟨rfl, fun h => { h with pool := Nat.min_le_right _ _ }⟩
  unfold refill
  simp only
  split
  · exact refilled.trans (prompt_calm _)
  · exact refilled

/-! ### The transmit slot map -/

theorem postLoop_calm (n : Nat) (s : State) : Calm s (postLoop n s).2 := by
  induction n generalizing s with
  | zero => exact .refl s
  | succ n ih =>
    unfold postLoop
    simp only
    split
    · exact (ih _).from_view rfl
    · exact .refl s

theorem takePost_calm (s : State) (v : Word) : Calm s (takePost s v) := by
  unfold takePost
  simp only
  split
  · exact (postLoop_calm _ s).trans (takeFault_calm _ _ _ _)
  · exact postLoop_calm _ s

theorem reclaimLoop_calm (n : Nat) (s : State) : Calm s (reclaimLoop n s).2 := by
  induction n generalizing s with
  | zero => exact .refl s
  | succ n ih =>
    unfold reclaimLoop
    simp only
    split
    · exact (ih _).from_view rfl
    · exact .refl s

theorem takeReclaim_calm (s : State) (v : Word) : Calm s (takeReclaim s v) := by
  unfold takeReclaim
  simp only
  split
  · exact (reclaimLoop_calm _ s).trans (takeFault_calm _ _ _ _)
  · exact reclaimLoop_calm _ s

theorem cancelIf_calm (s : State) (e : TxEntry) (i : Nat) : Calm s (cancelIf s e i) := by
  unfold cancelIf
  split
  · exact .of_view rfl
  · exact .refl s

theorem takeFetch_calm (s : State) (p : Path) (ps : Nat) : Calm s (takeFetch s p ps) := by
  unfold takeFetch
  simp only
  split
  · split
    case h_1 => exact .of_view rfl
    case h_2 => exact .of_view rfl
    all_goals exact .refl s
  · exact .refl s

theorem mirrorCompletion_calm (s : State) (p : Path) (ps i : Nat) (w : Word) : Calm s (mirrorCompletion s p ps i w) := by
  have mirrored (t : State) (same : t.calmView = s.calmView) (e : TxEntry) :
      Calm s (requestService (cancelIf t e i) .mirror i w) :=
    ((cancelIf_calm t e i).trans (.of_view (by rfl))).from_view same
  unfold mirrorCompletion
  simp only
  split
  · exact (mirrored _ (by rfl) _).trans (meterTx_calm _ _)
  · exact mirrored _ (by rfl) _

theorem takeCompletion_calm (s : State) (p : Path) (ps : Nat) (w : Word) : Calm s (takeCompletion s p ps w) := by
  unfold takeCompletion
  simp only
  split
  · split
    · exact mirrorCompletion_calm s p ps _ w
    · exact .refl s
  · split
    · exact .refl s
    · exact takeFault_calm _ _ _ _

theorem passSlot_calm (s : State) (p : Path) (ps : Nat) : Calm s (passSlot s p ps) := by
  have skipped (t : State) (same : t.calmView = s.calmView) (e : TxEntry) (i : Nat) :
      Calm s (skipEntry (cancelIf t e i) i 12) :=
    ((cancelIf_calm t e i).trans (skipEntry_calm _ i 12)).from_view same
  unfold passSlot
  simp only
  split
  · exact .of_view rfl
  · split
    · split
      · exact (skipped _ (by rfl) _ _).trans (meterTx_calm _ _)
      · exact skipped _ (by rfl) _ _
    · exact .of_view rfl

theorem passLoop_calm (p : Path) (n : Nat) (i : Word) (s : State) : Calm s (passLoop p n i s) := by
  induction n generalizing i s with
  | zero => exact .refl s
  | succ n ih => exact (passSlot_calm s p _).trans (ih (i + 1) _)

theorem endRingWait_calm (s : State) (p : Path) : Calm s (endRingWait s p) := by
  unfold endRingWait
  split
  · split
    · exact creditAndRing_calm s _
    · exact .refl s
  · exact .refl s

theorem restartStall_calm (s : State) (p : Path) : Calm s (restartStall s p) := by
  cases p <;> exact .of_view rfl

theorem lateWrite_calm (s : State) (c : NearCycle) (i : Nat) : Calm s (lateWrite s c i) := by
  unfold lateWrite
  split
  · exact (takeFault_calm s _ _ _).trans (.of_view rfl)
  · exact .refl s

/-! ### The receive merge unit -/

theorem requestHeader_calm (s : State) (w : Nat) (v : Word) : Calm s (requestHeader s w v) := by
  rw [(requestHeader_spec s w v).1]
  exact .of_view rfl

theorem assignOne_calm (s : State) (b : Batch) (rest : List Batch) (list : s.rmu.arrivals = b :: rest) :
    Calm s (assignOne s b rest) := by
  refine ⟨rfl, fun h => { h with arrivals := ?_ }⟩
  have before := h.arrivals
  rw [list, List.length_cons] at before
  show (if b.count ≤ 1 then rest else _ :: rest).length ≤ 32
  split
  · exact Nat.le_of_succ_le before
  · exact before

theorem assignLoop_calm (n : Nat) (s : State) : Calm s (assignLoop n s).2 := by
  induction n generalizing s with
  | zero => exact .refl s
  | succ n ih =>
    unfold assignLoop
    split
    · exact .refl s
    · rename_i b rest list
      split
      · exact (assignOne_calm s b rest list).trans (ih _)
      · exact .refl s

theorem assignRun_calm (s : State) : Calm s (assignRun s) := by
  unfold assignRun
  simp only
  split
  · exact assignLoop_calm _ s
  · exact (assignLoop_calm _ s).trans (requestHeader_calm _ _ _)

theorem length_addToLatest (p : Path) (n : Nat) (l : List Batch) : (addToLatest p n l).length = l.length := by
  induction l with
  | nil => rfl
  | cons b rest ih =>
    unfold addToLatest
    split
    · rfl
    · rw [List.length_cons, List.length_cons, ih]

/-- A batch that joins leaves the arrival list within its 32 records (R81). -/
theorem length_joinArrivals (l : List Batch) (p : Path) (n : Nat) (h : l.length ≤ 32) :
    (joinArrivals l p n).length ≤ 32 := by
  unfold joinArrivals
  split
  · exact Nat.succ_le_succ (Nat.zero_le 31)
  · split
    · rw [length_addToLatest]
      exact h
    · split
      · rename_i room
        rw [List.length_append]
        exact room
      · rw [length_addToLatest]
        exact h

/-- The batch of a producer write joins the arrival list, and the arrival is reported (R80, R94). -/
theorem arrival_calm (s : State) (p : Path) (r : RxRecs) (n : Nat) :
    Calm s (arrivalReport
      { setRxRecs s p r with rmu.arrivals := joinArrivals (setRxRecs s p r).rmu.arrivals p n } p) := by
  have silence (q : PathRecord) (hq : q.silence ≤ 255) : (if q.health = .up then 0 else q.silence) ≤ 255 := by
    split
    · exact Nat.zero_le _
    · exact hq
  cases p
  · exact ⟨rfl, fun h => { h with
      arrivals := length_joinArrivals _ _ _ h.arrivals
      fibre := { h.fibre with silence := silence _ h.fibre.silence } }⟩
  · exact ⟨rfl, fun h => { h with
      arrivals := length_joinArrivals _ _ _ h.arrivals
      radio := { h.radio with silence := silence _ h.radio.silence } }⟩

theorem releaseLoop_calm (n : Nat) (s : State) : Calm s (releaseLoop n s) := by
  induction n generalizing s with
  | zero => exact .refl s
  | succ n ih =>
    unfold releaseLoop
    simp only
    split <;> exact (ih _).from_view rfl

theorem writeBack_calm (old s : State) (p : Path) : Calm s (writeBack old s p) := by
  unfold writeBack
  split
  · exact .refl s
  · exact requestHeader_calm _ _ _

theorem takeRelease_calm (s : State) (v : Word) : Calm s (takeRelease s v) := by
  have written (t : State) (h : Calm s t) : Calm s (assignRun (writeBack s (writeBack s t .fibre) .radio)) :=
    ((h.trans (writeBack_calm s t .fibre)).trans (writeBack_calm s _ .radio)).trans (assignRun_calm _)
  unfold takeRelease
  apply written
  split
  · exact (releaseLoop_calm _ s).trans (takeFault_calm _ _ _ _)
  · exact releaseLoop_calm _ s

/-! ### Completions of the part's far cycles and the ticks -/

theorem retrigger_calm (s : State) (cls : Cls) : Calm s (retrigger s cls) := by
  unfold retrigger
  split
  · exact .refl s
  · split
    · exact .of_view rfl
    · split
      · exact .of_view rfl
      · exact .refl s

theorem publish_calm (s : State) (o : Operation) : Calm s (publish s o) := by
  have requested (t : State) (same : t.calmView = s.calmView) (w : Nat) (v : Word) (cls : Cls) :
      Calm s (endOp (retrigger (requestHeader t w v) cls) none) :=
    (((requestHeader_calm t w v).trans (retrigger_calm _ cls)).trans (endOp_calm _ none)).from_view same
  exact requested _ (by rfl) _ _ _

theorem withdrawn_calm (s : State) (i : Nat) : Calm s (withdrawn s i) := by
  have unmapped (t : State) (h : Calm s t) : Calm s
      (match t.ple.claim, t.swc.target with
        | .held, some (some p) => beginOp t i .reDecision p
        | _, _ => requeue { t with swc.step := none } i) := by
    split <;> exact h.trans (.of_view rfl)
  unfold withdrawn
  apply unmapped
  split <;> exact .of_view rfl

theorem serviceWriteDone_calm (s : State) (a : Access) : Calm s (serviceWriteDone s a) := by
  unfold serviceWriteDone
  split
  · exact .refl s
  · exact .of_view rfl

theorem startTake_calm (s : State) (w : Nat) (v : Word) : Calm s (startTake s w v) := by
  unfold startTake
  split
  case h_2 =>
    split
    · exact .refl s
    · exact takeFault_calm _ _ _ _
  all_goals exact .of_view rfl

theorem startReadDone_calm (v : Word) (s : State) (a : Access) : Calm s (startReadDone v s a) :=
  (startTake_calm s a.hdr v).trans (.of_view rfl)

theorem deferralTick_calm (s : State) : Calm s (deferralTick s) := by
  have expired (l : List DeferralRec) : ∀ t : State, Calm t (l.foldl expireRecord t) := by
    induction l with
    | nil => exact .refl
    | cons r rest ih =>
      exact fun t => ((removeRecord_calm t r.slot).trans (skipEntry_calm _ r.slot 9)).trans (ih _)
  unfold deferralTick
  simp only
  split
  · exact (expired _ _).from_view rfl
  · exact .of_view rfl

theorem syncTimers_calm (s : State) : Calm s (syncTimers s) := by
  have streak (t : State) : Calm t (syncStreak t) := by
    unfold syncStreak
    split
    · exact .refl t
    · exact ⟨rfl, fun h => { h with streak := Nat.zero_le _ }⟩
  have stall (t : State) (p : Path) : Calm t (syncStall t p) := by
    rw [syncStall_frame]
    cases p <;> exact .of_view rfl
  exact ((stall s .fibre).trans (stall _ .radio)).trans (streak _)

end Sys2Proof.Machine

/-! SUPPORT. Bounds of the counts and lists through the switch, the path monitor and the commands, and through every step. -/

namespace Sys2Proof.Machine

/-! ### The radio power sequencer and the switch controller -/

theorem evalStandby_counted {s : State} (h : s.Counted) : (evalStandby s).Counted := by
  have entered : (enterStandby s).Counted :=
    { h with retry := Nat.zero_le _, radio := { h.radio with trial := Nat.zero_le _, silence := Nat.zero_le _ } }
  have powered : (powerUp s).Counted := { h with radio := { h.radio with } }
  unfold evalStandby
  split
  · exact kept_ite (fun _ => entered) h
  · exact kept_ite (fun _ => entered) h
  · exact kept_ite (fun _ => h) powered
  · exact h

theorem reportService_counted {s : State} (h : s.Counted) : (reportService s).Counted := by
  have timed (k : Timer) : (evalStandby { s with pmn.power.keep := k }).Counted := evalStandby_counted { h with }
  exact kept_ite (fun _ => kept_ite (fun _ => timed _) (evalStandby_counted h)) (timed _)

theorem setService_counted {s : State} (p : Option Path) (h : s.Counted) : (setService s p).Counted := by
  have served : (if s.swc.service = p then s else reportService { s with swc.service := p }).Counted :=
    kept_ite (fun _ => h) (reportService_counted { h with })
  exact kept_ite (fun _ => { served with }) served

theorem startMigration_counted {s : State} (target : Option Path) (kind : MigrationKind) (h : s.Counted) :
    (startMigration s target kind).Counted := by
  have served : (setService
      { s with swc.state := .migrating, swc.target := some target, swc.kind := some kind } target).Counted :=
    setService_counted target { h with }
  exact (claimEngine_calm _).counted (kept_ite (fun _ => (takeFault_calm _ _ _ _).counted served) served)

theorem testWait_counted {s : State} (h : s.Counted) : (testWait s).Counted :=
  kept_ite (fun _ => startMigration_counted _ _ { h with }) h

theorem arrivalTrigger_counted {s : State} (h : s.Counted) : (arrivalTrigger s).Counted :=
  kept_ite (fun _ => kept_ite (fun _ => startMigration_counted _ _ h)
    (kept_ite (fun _ => startMigration_counted _ _ h) h)) h

theorem failbackTest_counted {s : State} (h : s.Counted) : (failbackTest s).Counted := by
  unfold failbackTest
  refine kept_ite (fun _ => ?_) h
  split
  · exact { h with }
  · exact kept_ite (fun _ => testWait_counted { h with }) h

theorem pathLeftUp_counted {s : State} (p : Path) (h : s.Counted) : (pathLeftUp s p).Counted :=
  kept_ite (fun _ => kept_ite
    (fun _ => kept_ite (fun _ => startMigration_counted _ _ { h with }) (startMigration_counted _ _ { h with }))
    (kept_ite (fun _ => { h with }) h)) h

theorem pathBecameUp_counted {s : State} (p : Path) (h : s.Counted) : (pathBecameUp s p).Counted := by
  cases p with
  | fibre => exact failbackTest_counted (arrivalTrigger_counted h)
  | radio => exact arrivalTrigger_counted h

theorem endMigration_counted {s : State} (h : s.Counted) : (endMigration s).Counted := by
  have triggered {t : State} (ht : t.Counted) : (if t.swc.service = none then arrivalTrigger t
      else if t.swc.service = some .radio then failbackTest t else t).Counted :=
    kept_ite (fun _ => arrivalTrigger_counted ht) (kept_ite (fun _ => failbackTest_counted ht) ht)
  have counted {t : State} (ht : t.Counted) : (match s.swc.kind with
      | some .failover => { t with swc.failovers := satInc 65535 t.swc.failovers }
      | some .failback => { t with swc.failbacks := satInc 65535 t.swc.failbacks }
      | some .arrival => t
      | some .forced => t
      | none => t : State).Counted := by
    split
    · exact { ht with failovers := satInc_le _ _ }
    · exact { ht with failbacks := satInc_le _ _ }
    · exact ht
    · exact ht
    · exact ht
  have released : (settleEngine
      { s with swc.state := .steady, swc.target := none, swc.kind := none, swc.step := none, ple.claim := .none }).Counted :=
    (settleEngine_calm _).counted { h with }
  have scanned := (settleEngine_calm _).counted ((prompt_calm _).counted released)
  unfold endMigration
  exact triggered (counted ({ kept_ite (fun _ => scanned) released with }))

/-! ### The zero-time work -/

theorem workStep_counted {s t : State} (h : s.Counted) (work : workStep s = some t) : t.Counted := by
  unfold workStep at work
  split at work
  · exact (engineStep_calm s t work).counted h
  · split at work
    · injection work with granted
      exact granted ▸ { h with }
    · cases work
  · split at work
    · split at work
      · injection work with ended
        exact ended ▸ endMigration_counted h
      · injection work with examined
        exact examined ▸ (examine_calm s _ _).counted h
    · cases work

theorem runWork_counted (n : Nat) {s : State} (h : s.Counted) : (runWork n s).Counted := by
  induction n generalizing s with
  | zero => exact h
  | succ n ih =>
    unfold runWork
    split
    · exact h
    · rename_i t work
      exact ih (workStep_counted h work)

theorem settleWork_counted {s : State} (h : s.Counted) : (settleWork s).Counted :=
  (syncTimers_calm _).counted (runWork_counted _ h)

/-! ### The path monitor -/

/-- The flap list holds 15 entries at most (R103). -/
theorem flapAppend_counted {s : State} (h : s.Counted) : (flapAppend s).Counted := by
  have bound := h.flaps
  have appended : ((if s.pmn.flaps.length < Config.maxFlaps then s.pmn.flaps else s.pmn.flaps.drop 1) ++
      [s.clock.uptime]).length ≤ 15 := by
    rw [List.length_append, List.length_singleton]
    split
    · rename_i room
      exact room
    · rw [List.length_drop]
      omega
  unfold flapAppend
  exact kept_ite (fun _ => (takeFault_calm _ _ _ _).counted { h with flaps := appended }) { h with flaps := appended }

theorem PathRecord.Counted.goDown {r : PathRecord} (h : r.Counted) (cause : DownCause) : (r.goDown cause).Counted :=
  ⟨Nat.zero_le _, Nat.zero_le _, satInc_le _ _, h.trials⟩

theorem downEvent_counted {s : State} (p : Path) (cause : DownCause) (h : s.Counted) : (downEvent s p cause).Counted := by
  have down := (takeFault_calm _ .pathDown (some p) none).counted (h.setRec p ((h.record p).goDown cause))
  unfold downEvent
  simp only
  refine kept_ite (fun _ => pathLeftUp_counted p ?_) ?_ <;> split
  · exact evalStandby_counted (flapAppend_counted down)
  · exact kept_ite (fun _ => { down with }) down
  · exact evalStandby_counted (flapAppend_counted down)
  · exact kept_ite (fun _ => { down with }) down

theorem applyCause_counted {s : State} (p : Path) (cause : DownCause) (h : s.Counted) : (applyCause s p cause).Counted := by
  unfold applyCause
  split
  · exact downEvent_counted p cause h
  · exact downEvent_counted p cause h
  · exact kept_ite (fun _ => h.setRec p { h.record p with }) h
  · exact h
  · exact h

theorem terminalIndex_counted {s : State} (p : Path) (h : s.Counted) : (terminalIndex s p).Counted :=
  applyCause_counted p _ ((takeFault_calm _ _ _ _).counted h)

theorem enterTrial_counted {s : State} (p : Path) (h : s.Counted) : (enterTrial s p).Counted :=
  kept_ite (fun _ => h.setRec p
    { h.record p with trial := Nat.zero_le _, silence := Nat.zero_le _, trials := satInc_le _ _ }) h

theorem becomeUp_counted {s : State} (p : Path) (h : s.Counted) : (becomeUp s p).Counted := by
  have up := h.setRec p (r := { s.pathRec p with health := .up, trial := 0, silence := 0 })
    { h.record p with trial := Nat.zero_le _, silence := Nat.zero_le _ }
  cases p with
  | fibre => exact pathBecameUp_counted .fibre (evalStandby_counted up)
  | radio => exact pathBecameUp_counted .radio { up with retry := Nat.zero_le _ }

theorem judge_counted {s : State} (p : Path) (h : s.Counted) : (judge s p).Counted := by
  have silent (n : Nat) (hn : n ≤ 255) : (setRec s p { s.pathRec p with silence := n }).Counted :=
    h.setRec p { h.record p with silence := hn }
  have tried (n : Nat) (hn : n ≤ 255) : (setRec s p { s.pathRec p with trial := n }).Counted :=
    h.setRec p { h.record p with trial := hn }
  have missed := silent _ (satInc_le 255 (s.pathRec p).silence)
  unfold judge
  split
  · exact kept_ite (fun _ => kept_ite (fun _ => silent 0 (Nat.zero_le _))
      (kept_ite (fun _ => downEvent_counted p _ missed) missed)) h
  · unfold judgeTrial
    simp only
    split
    · have bound : (if (s.pathRec p).mark = false ∧ s.silenceInForce p = true then 0
          else satInc 255 (s.pathRec p).trial) ≤ 255 := by
        split
        · exact Nat.zero_le _
        · exact satInc_le _ _
      exact kept_ite (fun _ => becomeUp_counted p (tried _ bound)) (tried _ bound)
    · exact h
    · exact h
  · exact kept_ite (fun _ => enterTrial_counted p h) h
  · exact h
  · exact h

theorem badConfirm_counted {s : State} (p : Path) (h : s.Counted) : (badConfirm s p).Counted :=
  applyCause_counted p _ (h.setRec p { h.record p with })

theorem stallExpires_counted {s : State} (p : Path) (h : s.Counted) : (stallExpires s p).Counted := by
  unfold stallExpires
  split
  · exact downEvent_counted p _ h
  · exact downEvent_counted p _ h
  · exact h
  · exact h
  · exact h

theorem attachExpires_counted {s : State} (h : s.Counted) : (attachExpires s).Counted := by
  have timedOut := (takeFault_calm { s with pmn.power.attach := none, pmn.power.retry := satInc 8 s.pmn.power.retry }
    .attachTimeout (some .radio) none).counted { h with retry := satInc_le _ _ }
  have failed {t : State} (ht : t.Counted) : (enterFailed t).Counted := by
    have out : (setRec { t with pmn.power.phase := .failed, pmn.power.attach := none, pmn.power.off := none } .radio
        { t.pathRec .radio with health := .failed, trial := 0, silence := 0, stall := none }).Counted :=
      { ht with radio := { ht.radio with trial := Nat.zero_le _, silence := Nat.zero_le _ } }
    exact (takeFault_calm _ _ _ _).counted out
  have cycled {t : State} (ht : t.Counted) : (powerCycle t).Counted := by
    have off : { t with pmn.power.phase := .cycling, pmn.power.attach := none }.Counted := { ht with }
    exact { kept_ite (fun _ => downEvent_counted .radio .powerCycle off) off with }
  exact kept_ite (fun _ => failed timedOut) (cycled timedOut)

theorem flapTick_counted {s : State} (h : s.Counted) : (flapTick s).Counted := by
  refine { h with flaps := ?_ }
  show (expireFlaps _ _ _).length ≤ 15
  rw [expireFlaps_eq]
  exact Nat.le_trans (List.length_dropWhile_le _ _) h.flaps

theorem quietExpires_counted {s : State} (a : Activity) (h : s.Counted) : (quietExpires s a).Counted := by
  cases a with
  | voice => exact testWait_counted { h with }
  | emergency => exact testWait_counted { h with }

theorem tick_counted {s : State} (h : s.Counted) : (tick s).Counted := by
  refine { h with fibre := { h.fibre with }, radio := { h.radio with }, sub := ?_ }
  show s.clock.tick.sub < 1024
  unfold Clock.tick
  split
  · rename_i within
    exact within
  · exact Nat.zero_lt_succ _

/-! ### Near words and completions -/

theorem takeTxConsumer_counted {s : State} (p : Path) (v : Word) (h : s.Counted) : (takeTxConsumer s p v).Counted := by
  have passed := (passLoop_calm p (advance v (s.ring p).consumer) (s.ring p).consumer s).counted h
  refine kept_ite (fun _ => ?_) (terminalIndex_counted p h)
  exact kept_ite (fun _ => { passed with })
    ((endRingWait_calm _ p).counted ((restartStall_calm _ p).counted { passed with }))

theorem takeRxProducer_counted {s : State} (p : Path) (v : Word) (h : s.Counted) : (takeRxProducer s p v).Counted := by
  refine kept_ite (fun _ => kept_ite (fun _ => ?_) ?_) (terminalIndex_counted p h)
  · exact { h with }
  · exact (assignRun_calm _).counted ((arrival_calm s p _ _).counted h)

theorem takeWord_counted {s : State} (c : NearCycle) (a : Addr) (v : Word) (h : s.Counted) : (takeWord s c a v).Counted := by
  have header (w : Nat) : (takeHeader s w v).Counted := by
    unfold takeHeader
    split
    · exact (takePost_calm s v).counted h
    · exact (takeReclaim_calm s v).counted h
    · exact (takeRelease_calm s v).counted h
    · exact takeTxConsumer_counted .fibre v h
    · exact takeRxProducer_counted .fibre v h
    · exact takeTxConsumer_counted .radio v h
    · exact takeRxProducer_counted .radio v h
    · exact h
  unfold takeWord
  refine kept_ite (fun _ => ?_) h
  split
  · exact kept_ite (fun _ => (lateWrite_calm s c _).counted h) h
  · exact kept_ite (fun _ => header _) h
  · exact kept_ite (fun _ => (takeFetch_calm s _ _).counted h) h
  · exact kept_ite (fun _ => (takeCompletion_calm s _ _ v).counted h) h
  · exact kept_ite (fun _ => (meterRx_calm s _).counted h) h
  · exact h

theorem becomeActive_counted {s : State} (h : s.Counted) : (becomeActive s).Counted := by
  have begun : (clearSilence (clearSilence
      { s with pcf.part := .active, umt.pool := s.sdc.settings.metering.ceiling } .fibre) .radio).Counted :=
    { h with
      pool := Nat.le_refl _
      fibre := { h.fibre with silence := Nat.zero_le _ }
      radio := { h.radio with silence := Nat.zero_le _ } }
  have served (p : Option Path) := setService_counted p begun
  exact settleWork_counted (kept_ite (fun _ => (takeFault_calm _ _ _ _).counted (served _)) (served _))

theorem startWriteDone_counted {s : State} (a : Access) (h : s.Counted) : (startWriteDone s a).Counted := by
  unfold startWriteDone
  split
  · exact { h with }
  · exact { h with }
  · exact { h with }
  · exact { h with }
  · exact kept_ite (fun _ => becomeActive_counted h) h

theorem enterHalted_counted {s : State} (h : s.Counted) : (enterHalted s).Counted :=
  (syncTimers_calm _).counted (setService_counted none { h with })

theorem takeForce_counted {s : State} (v : Word) (h : s.Counted) : (takeForce v s).Counted := by
  unfold takeForce
  split
  · exact settleWork_counted (failbackTest_counted { h with })
  · exact kept_ite (fun _ => kept_ite (fun _ => { h with }) { h with })
      (settleWork_counted (startMigration_counted _ _ { h with }))

theorem takeFailbackMode_counted {s : State} (v : Word) (h : s.Counted) : (takeFailbackMode v s).Counted :=
  kept_ite (fun _ => settleWork_counted (failbackTest_counted { h with flaps := Nat.zero_le _ }))
    (kept_ite (fun _ => { h with }) { h with })

theorem takeRadioRestart_counted {s : State} (h : s.Counted) : (takeRadioRestart s).Counted := by
  have powered : (powerUp { s with pmn.power.retry := 0 }).Counted :=
    { h with retry := Nat.zero_le _, radio := { h.radio with } }
  exact kept_ite (fun _ => evalStandby_counted { powered with }) powered

theorem resizeTables_counted {s : State} (g : Geometry) (i : Nat) (h : s.Counted) :
    (resizeTables { s with sdc.settings.geometry := g } i).Counted := by
  unfold resizeTables
  split
  · exact { h with }
  · exact { h with arrivals := Nat.zero_le _ }
  · exact { h with }
  · exact { h with }
  · exact { h with }

/-! ### Every step -/

/-- Every operation of a command keeps the bounds but for the migration list. -/
theorem counted_kept : Kept State.Counted where
  free := by
    intro s t h core far
    refine (Calm.of_view ?_).counted h
    simp only [State.core, State.farCore, Prod.mk.injEq] at core far
    simp only [State.calmView, core, far]
  fault c p i h := (takeFault_calm _ c p i).counted h
  charge {s} h := by
    refine { h with streak := ?_ }
    show (if s.partWaits then satInc 4 s.fsp.streak else 0) ≤ 4
    split
    · exact satInc_le _ _
    · exact Nat.zero_le _
  streak h := { h with streak := Nat.zero_le _ }
  hold bound h := { h with hold := bound }
  requests _ h := { h with }
  settle := settleWork_counted
  word c a v h := takeWord_counted c a v h
  halt _ h := enterHalted_counted h
  readDone {s} d a _ h := by
    unfold readDone
    split
    · exact h
    · exact settleWork_counted (((takeRead_calm s _ d).trans (decideOp_calm _ _)).counted h)
  copyDone {s} a _ h := by
    unfold copyDone
    split
    · exact h
    · exact settleWork_counted ((publish_calm s _).counted h)
  withdrawalDone {s} a _ h := by
    unfold withdrawalDone
    split
    · exact h
    · exact settleWork_counted ((withdrawn_calm s _).counted h)
  serviceWriteDone a _ h := (serviceWriteDone_calm _ a).counted h
  startReadDone v a _ h := (startReadDone_calm v _ a).counted h
  startWriteDone a _ h := startWriteDone_counted a h
  judge := judge_counted
  trial := enterTrial_counted
  confirm := badConfirm_counted
  stall := stallExpires_counted
  attach _ h := attachExpires_counted h
  powerOff _ h := { h with }
  standby := evalStandby_counted
  flaps := flapTick_counted
  ages h := (deferralTick_calm _).counted h
  quiet := quietExpires_counted
  wait h := testWait_counted { h with }
  regime h := (computeRegime_calm _).counted h
  meters _ _ _ h := { h with }
  refill h := (refill_calm _).counted h
  tick := tick_counted
  bus _ _ h := { h with }
  resize g i _ h := resizeTables_counted g i h
  ceiling _ h := { h with pool := Nat.min_le_right _ _ }
  start _ h := { h with deferral := Nat.zero_le _, arrivals := Nat.zero_le _ }
  force v _ h := takeForce_counted v h
  failbackNow _ h := settleWork_counted (startMigration_counted _ _ { h with })
  failbackMode := takeFailbackMode_counted
  radioRestart _ h := takeRadioRestart_counted h
  clearFaults h := { h with faults := ⟨Nat.zero_le _, Nat.zero_le _, Nat.zero_le _, Nat.zero_le _⟩ }

theorem startTake_walk (s : State) (w : Nat) (v : Word) : (startTake s w v).walk = s.walk := by
  unfold startTake
  split
  case h_2 => split <;> rfl
  all_goals rfl

/-- Every operation of a command keeps the migration list within the ring, and empty in CONFIG. -/
theorem listed_kept : Kept State.Listed where
  free := by
    intro s t h core _
    simp only [State.core, Prod.mk.injEq] at core
    obtain ⟨⟨part, -⟩, ⟨tsm, -⟩, -, ⟨-, -, list, -⟩, -⟩ := core
    exact h.congr ((walk_iff s t).2 ⟨part, by rw [tsm], list⟩)
  fault _ _ _ h := h.congr rfl
  charge h := h.congr rfl
  streak h := h.congr rfl
  hold _ h := h.congr rfl
  requests _ h := h.congr rfl
  settle := settleWork_listed
  word c a v h := takeWord_listed c a v h
  halt _ h := (enterHalted_resting h).listed
  readDone {s} d a _ h := by
    unfold readDone
    split
    · exact h
    · exact settleWork_listed (h.congr ((decideOp_walk _ _).trans (takeRead_walk s _ d)))
  copyDone {s} a _ h := by
    unfold copyDone
    split
    · exact h
    · exact settleWork_listed (h.congr (publish_walk s _))
  withdrawalDone {s} a _ h := by
    unfold withdrawalDone
    split
    · exact h
    · exact settleWork_listed (h.congr (withdrawn_walk s _))
  serviceWriteDone {s} a _ h := by
    unfold serviceWriteDone
    split
    · exact h
    · exact h.congr (setEntry_walk s _ _)
  startReadDone {s} v a _ h := h.congr (startTake_walk s a.hdr v)
  startWriteDone {s} a _ h := by
    unfold startWriteDone
    split
    · exact h.congr rfl
    · exact h.congr rfl
    · exact h.congr rfl
    · exact h.congr rfl
    · exact kept_ite (fun _ => (becomeActive_resting h).listed) h
  judge := judge_listed
  trial p h := h.congr (enterTrial_walk _ p)
  confirm := badConfirm_listed
  stall := stallExpires_listed
  attach _ h := attachExpires_listed h
  powerOff _ h := h.congr rfl
  standby h := h.congr (evalStandby_walk _)
  flaps h := h.congr rfl
  ages {s} h := h.congr (deferralTick_quieter s).walk
  quiet a h := h.congr (quietExpires_walk _ a)
  wait h := h.congr (waitExpires_walk _)
  regime h := h.congr (computeRegime_walk _)
  meters _ _ _ h := h.congr rfl
  refill h := h.congr (refill_walk _)
  tick h := h.congr rfl
  bus _ _ h := h.congr rfl
  resize {s} g i config h := by
    have empty : s.swc.list = [] := h.config config
    unfold resizeTables
    split <;> exact .empty empty
  ceiling _ h := h.congr rfl
  start {s} taken h := by
    have config : s.pcf.part = .config := by
      by_contra other
      rw [startRefusal_state s other] at taken
      cases taken
    exact .empty (h.config config)
  force {s} v _ h := by
    unfold takeForce
    split
    · exact settleWork_listed (h.congr ((failbackTest_walk _).trans rfl))
    · exact kept_ite (fun _ => kept_ite (fun _ => h.congr rfl) (h.congr rfl))
        (settleWork_listed (h.congr ((startMigration_walk _ _ _).trans rfl)))
  failbackNow _ h := settleWork_listed (h.congr ((startMigration_walk _ _ _).trans rfl))
  failbackMode v h := kept_ite (fun _ => settleWork_listed (h.congr ((failbackTest_walk _).trans rfl)))
    (kept_ite (fun _ => h.congr rfl) (h.congr rfl))
  radioRestart {s} _ h := h.congr (takeRadioRestart_quieter s).walk
  clearFaults h := h.congr rfl

theorem lowReset_counted (l : Lines) (q : List Instr) : (State.lowReset l q).Counted where
  pool := Nat.le_refl _
  deferral := Nat.zero_le _
  arrivals := Nat.zero_le _
  flaps := Nat.zero_le _
  retry := Nat.zero_le _
  fibre := ⟨Nat.zero_le _, Nat.zero_le _, Nat.zero_le _, Nat.zero_le _⟩
  radio := ⟨Nat.zero_le _, Nat.zero_le _, Nat.zero_le _, Nat.zero_le _⟩
  streak := Nat.zero_le _
  hold := Nat.zero_le _
  failovers := Nat.zero_le _
  failbacks := Nat.zero_le _
  faults := ⟨Nat.zero_le _, Nat.zero_le _, Nat.zero_le _, Nat.zero_le _⟩
  sub := Nat.zero_lt_succ _

/-- Settles O55: the bounds are the migration list's (`listed_kept`) and those of the counts, the other lists, the pool and the
timers (`counted_kept`), each kept by every operation that a command is made of. -/
theorem boundsKept : Obligations.BoundsKept := by
  intro s t h e
  obtain ⟨listed, counted⟩ := (bounded_iff s).1 h
  refine (bounded_iff t).2 ⟨?_, ?_⟩
  · exact listed_kept.step (fun _ _ => .empty rfl) (fun _ _ => .empty rfl) (fun _ _ _ => .empty rfl) listed e
  · refine counted_kept.step lowReset_counted (fun l q => ?_) (fun _ _ hu => ?_) counted e
    · have low := lowReset_counted l q
      exact { low with fibre := { low.fibre with }, radio := { low.radio with } }
    · exact { hu with deferral := Nat.zero_le _, arrivals := Nat.zero_le _, streak := Nat.zero_le _ }

end Sys2Proof.Machine

/-! SUPPORT. The service path is NONE or a path that is UP: the radio's power, the paths that leave UP, the switch's work and
every step (R105, R108, R109, R115, R122, R123). -/

namespace Sys2Proof.Machine

theorem service_iff (s t : State) : t.service = s.service ↔
    (t.pcf.part = s.pcf.part ∧ t.swc.service = s.swc.service ∧ t.swc.state = s.swc.state) ∧
    (t.pmn.power.phase = s.pmn.power.phase ∧ t.pmn.power.attach = s.pmn.power.attach ∧
      t.pmn.power.off = s.pmn.power.off) ∧
    t.pmn.recs.fibre.health = s.pmn.recs.fibre.health ∧ t.pmn.recs.radio.health = s.pmn.recs.radio.health := by
  simp only [State.service, Prod.mk.injEq]

theorem health_of_service {s t : State} (same : t.service = s.service) (p : Path) :
    (t.pathRec p).health = (s.pathRec p).health := by
  obtain ⟨-, -, fibre, radio⟩ := (service_iff s t).1 same
  cases p
  · exact fibre
  · exact radio

/-! ### The radio's power -/

/-- The radio's health and timers as its phase has them (R105, R108, R109). -/
structure State.PowerSound (s : State) : Prop where
  powered : (s.pathRec .radio).health = .trial ∨ (s.pathRec .radio).health = .up → s.pmn.power.phase = .powered
  attaching : s.pmn.power.attach ≠ none →
    s.pmn.power.phase = .powered ∧ ((s.pathRec .radio).health = .down ∨ (s.pathRec .radio).health = .trial)
  cycling : s.pmn.power.off ≠ none → s.pmn.power.phase = .cycling ∧ (s.pathRec .radio).health = .down

theorem State.ServiceSound.power {s : State} (h : s.ServiceSound) : s.PowerSound := { h with }

theorem State.PowerSound.of_same {s t : State} (h : s.PowerSound)
    (health : (t.pathRec .radio).health = (s.pathRec .radio).health)
    (phase : t.pmn.power.phase = s.pmn.power.phase) (attach : t.pmn.power.attach = s.pmn.power.attach)
    (off : t.pmn.power.off = s.pmn.power.off) : t.PowerSound :=
  ⟨by rw [health, phase]; exact h.powered, by rw [health, phase, attach]; exact h.attaching,
    by rw [health, phase, off]; exact h.cycling⟩

theorem State.PowerSound.congr {s t : State} (h : s.PowerSound) (same : t.service = s.service) : t.PowerSound := by
  have health := health_of_service same .radio
  obtain ⟨-, ⟨phase, attach, off⟩, -⟩ := (service_iff s t).1 same
  exact h.of_same health phase attach off

theorem State.ServiceSound.congr {s t : State} (h : s.ServiceSound) (same : t.service = s.service) : t.ServiceSound := by
  have power := h.power.congr same
  have health := health_of_service same
  obtain ⟨⟨part, service, state⟩, -⟩ := (service_iff s t).1 same
  exact { power with
    up := fun p serves => (health p).trans (h.up p (service ▸ serves))
    active := fun idle => service.trans (h.active (part ▸ idle))
    waiting := fun waits => by
      rw [service, health]
      exact h.waiting (state ▸ waits) }

theorem State.ServiceSound.calm {s t : State} (h : s.ServiceSound) (k : Calm s t) : t.ServiceSound := h.congr k.service

/-- Where the radio is in STANDBY the power-off timer is stopped. -/
theorem State.PowerSound.off_none {s : State} (h : s.PowerSound) (phase : s.pmn.power.phase ≠ .cycling) :
    s.pmn.power.off = none := by
  by_contra running
  exact phase (h.cycling running).1

theorem enterStandby_power (s : State) : (enterStandby s).PowerSound :=
  ⟨fun health => (nofun : ¬ (Health.off = .trial ∨ Health.off = .up)) health |>.elim, fun h => absurd rfl h,
    fun h => absurd rfl h⟩

theorem powerUp_power {s : State} (h : s.PowerSound) (phase : s.pmn.power.phase ≠ .cycling) : (powerUp s).PowerSound :=
  ⟨fun _ => rfl, fun _ => ⟨rfl, .inl rfl⟩, fun running => absurd (h.off_none phase) running⟩

/-- The three ways the standby condition is answered (R106). -/
theorem evalStandby_cases (s : State) : evalStandby s = s ∨
    (s.standbyCond = true ∧ evalStandby s = enterStandby s) ∨
    (s.pmn.power.phase = .standby ∧ evalStandby s = powerUp s) := by
  unfold evalStandby
  split
  · split
    · rename_i cond
      exact .inr (.inl ⟨cond, rfl⟩)
    · exact .inl rfl
  · split
    · rename_i cond
      exact .inr (.inl ⟨cond, rfl⟩)
    · exact .inl rfl
  · rename_i phase
    split
    · exact .inl rfl
    · exact .inr (.inr ⟨phase, rfl⟩)
  · exact .inl rfl

theorem standbyCond_serves {s : State} (h : s.standbyCond = true) :
    s.swc.service = some .fibre ∧ (s.pathRec .fibre).health = .up := by
  simp only [State.standbyCond, State.isUp, Bool.and_eq_true, decide_eq_true_eq] at h
  obtain ⟨⟨⟨-, up⟩, serves⟩, -⟩ := h
  exact ⟨serves, up⟩

theorem evalStandby_power {s : State} (h : s.PowerSound) : (evalStandby s).PowerSound := by
  rcases evalStandby_cases s with e | ⟨-, e⟩ | ⟨phase, e⟩ <;> rw [e]
  · exact h
  · exact enterStandby_power s
  · exact powerUp_power h (by rw [phase]; nofun)

/-- The radio stays UP unless FIBRE serves. -/
theorem evalStandby_radioUp {s : State} (h : s.PowerSound) (up : (s.pathRec .radio).health = .up)
    (other : s.swc.service ≠ some .fibre) : evalStandby s = s := by
  have powered := h.powered (.inr up)
  rcases evalStandby_cases s with e | ⟨cond, -⟩ | ⟨phase, -⟩
  · exact e
  · exact absurd (standbyCond_serves cond).1 other
  · rw [powered] at phase
    cases phase

theorem evalStandby_fibre (s : State) : (evalStandby s).pathRec .fibre = s.pathRec .fibre := by
  obtain ⟨-, kept⟩ := evalStandby_frame s
  exact (congrArg (fun m => m.recs.fibre) kept).trans rfl

theorem evalStandby_outside (s : State) : (evalStandby s).swc = s.swc ∧ (evalStandby s).pcf = s.pcf := by
  obtain ⟨frame, -⟩ := evalStandby_frame s
  constructor <;> rw [frame]

/-- The standby condition keeps the service path sound. -/
theorem evalStandby_sound {s : State} (h : s.ServiceSound) : (evalStandby s).ServiceSound := by
  obtain ⟨swc, pcf⟩ := evalStandby_outside s
  have fibre := evalStandby_fibre s
  have radio (serves : s.swc.service = some .radio) : evalStandby s = s :=
    evalStandby_radioUp h.power (h.up .radio serves) (by rw [serves]; nofun)
  exact { evalStandby_power h.power with
    up := by
      intro p serves
      rw [swc] at serves
      cases p with
      | fibre =>
        rw [fibre]
        exact h.up .fibre serves
      | radio =>
        rw [radio serves]
        exact h.up .radio serves
    active := by
      rw [swc, pcf]
      exact h.active
    waiting := by
      rw [swc, fibre]
      exact h.waiting }

/-! ### A change of the service path -/

theorem setService_power {s : State} (p : Option Path) (h : s.PowerSound) : (setService s p).PowerSound := by
  have timed (k : Timer) : (evalStandby { s with swc.service := p, pmn.power.keep := k }).PowerSound :=
    evalStandby_power (h.of_same rfl rfl rfl rfl)
  have reported : (reportService { s with swc.service := p }).PowerSound :=
    kept_ite (fun _ => kept_ite (fun _ => timed _) (evalStandby_power (h.of_same rfl rfl rfl rfl))) (timed _)
  have served : (if s.swc.service = p then s else reportService { s with swc.service := p }).PowerSound :=
    kept_ite (fun _ => h) reported
  exact kept_ite (fun _ => served.of_same rfl rfl rfl rfl) served

/-- A path that is UP stays UP as it becomes the service path. -/
theorem setService_up {s : State} {p : Path} (h : s.PowerSound) (up : (s.pathRec p).health = .up) :
    ((setService s (some p)).pathRec p).health = .up := by
  obtain ⟨-, kept, -⟩ := setService_frame s (some p)
  cases p with
  | fibre => exact (congrArg (fun m => m.recs.fibre.health) kept).trans up
  | radio =>
    have stopped := evalStandby_radioUp (s := { s with swc.service := some .radio, pmn.power.keep := none })
      (h.of_same rfl rfl rfl rfl) up nofun
    have reported : reportService { s with swc.service := some .radio } =
        { s with swc.service := some .radio, pmn.power.keep := none } := (if_neg nofun).trans stopped
    unfold setService
    simp only [reduceCtorEq, if_false]
    split
    · exact up
    · rw [reported]
      exact up

/-- The service path set to NONE or a path that is UP is sound. -/
theorem setService_sound {s : State} (p : Option Path) (h : s.PowerSound) (active : s.pcf.part = .active ∨ p = none)
    (up : ∀ q, p = some q → (s.pathRec q).health = .up) (state : s.swc.state ≠ .waiting) :
    (setService s p).ServiceSound := by
  obtain ⟨frame, -, swc⟩ := setService_frame s p
  have pcf : (setService s p).pcf = s.pcf := by rw [frame]
  exact { setService_power p h with
    up := by
      intro q serves
      rw [swc] at serves
      have target : p = some q := serves
      subst target
      exact setService_up h (up q rfl)
    active := by
      rw [pcf, swc]
      exact fun idle => active.elim (fun a => absurd a idle) id
    waiting := by
      rw [swc]
      exact fun waits => absurd waits state }

/-- A migration toward NONE or a path that is UP (R127). -/
theorem startMigration_sound {s : State} {target : Option Path} (kind : MigrationKind) (h : s.PowerSound)
    (active : s.pcf.part = .active) (up : ∀ q, target = some q → (s.pathRec q).health = .up) :
    (startMigration s target kind).ServiceSound := by
  have served : (setService
      { s with swc.state := .migrating, swc.target := some target, swc.kind := some kind } target).ServiceSound :=
    setService_sound target (h.of_same rfl rfl rfl rfl) (.inl active) up nofun
  exact State.ServiceSound.calm (kept_ite (fun _ => served.calm (takeFault_calm _ _ _ _)) served) (claimEngine_calm _)

/-! ### Triggers -/

theorem testWait_sound {s : State} (h : s.ServiceSound) : (testWait s).ServiceSound := by
  refine kept_ite (fun ready => ?_) h
  obtain ⟨radio, up⟩ := h.waiting ready.1
  have active : s.pcf.part = .active := by
    by_contra idle
    rw [h.active idle] at radio
    cases radio
  refine startMigration_sound .failback (State.PowerSound.congr h.power rfl) active ?_
  rintro q ⟨⟩
  exact up

theorem arrivalTrigger_sound {s : State} (h : s.ServiceSound) : (arrivalTrigger s).ServiceSound := by
  have arrives (p : Path) (active : s.pcf.part = .active) (up : s.isUp p = true) :
      (startMigration s (some p) .arrival).ServiceSound := by
    refine startMigration_sound .arrival h.power active ?_
    rintro q ⟨⟩
    exact (isUp_iff s p).1 up
  exact kept_ite (fun ready => kept_ite (arrives .fibre ready.1) (kept_ite (arrives .radio ready.1) h)) h

theorem failbackTest_sound {s : State} (h : s.ServiceSound) : (failbackTest s).ServiceSound := by
  unfold failbackTest
  refine kept_ite (fun ready => ?_) h
  obtain ⟨-, -, radio, up⟩ := ready
  split
  · exact h.congr rfl
  · refine kept_ite (fun _ => testWait_sound ?_) h
    exact { h with waiting := fun _ => ⟨radio, (isUp_iff s .fibre).1 up⟩ }

theorem endWait_sound {s : State} (h : s.ServiceSound) : (endWait s).ServiceSound := { h with waiting := nofun }

theorem pathBecameUp_sound {s : State} (p : Path) (h : s.ServiceSound) : (pathBecameUp s p).ServiceSound := by
  cases p with
  | fibre => exact failbackTest_sound (arrivalTrigger_sound h)
  | radio => exact arrivalTrigger_sound h

/-! ### A path that leaves UP (R92, R101) -/

/-- The service path is sound but for a path that has just left UP. -/
structure LeftUp (s : State) (p : Path) : Prop where
  left : (s.pathRec p).health ≠ .up
  power : s.PowerSound
  up : ∀ q, q ≠ p → s.swc.service = some q → (s.pathRec q).health = .up
  active : s.pcf.part ≠ .active → s.swc.service = none
  waiting : s.swc.state = .waiting → s.swc.service = some .radio ∧ (p ≠ .fibre → (s.pathRec .fibre).health = .up)

theorem LeftUp.congr {s t : State} {p : Path} (h : LeftUp s p) (same : t.service = s.service) : LeftUp t p := by
  have power := h.power.congr same
  have health := health_of_service same
  obtain ⟨⟨part, service, state⟩, -⟩ := (service_iff s t).1 same
  exact ⟨health p ▸ h.left, power, fun q other serves => (health q).trans (h.up q other (service ▸ serves)),
    fun idle => service.trans (h.active (part ▸ idle)), fun waits => by
      rw [service, health]
      exact h.waiting (state ▸ waits)⟩

/-- A path that neither serves nor is waited for leaves the service path sound. -/
theorem LeftUp.sound {s : State} {p : Path} (h : LeftUp s p) (idle : s.swc.service ≠ some p)
    (unawaited : s.swc.state = .waiting → p ≠ .fibre) : s.ServiceSound :=
  { h.power with
    up := fun q serves => h.up q (fun same => idle (same ▸ serves)) serves
    active := h.active
    waiting := fun waits => ⟨(h.waiting waits).1, (h.waiting waits).2 (unawaited waits)⟩ }

/-- What leaves UP is reported to the switch, which serves by another path, or by none (R120, R123). -/
theorem pathLeftUp_sound {s : State} {p : Path} (h : LeftUp s p) : (pathLeftUp s p).ServiceSound := by
  have other (q : Path) (e : s.failoverTarget p = some q) : (s.pathRec q).health = .up := by
    unfold State.failoverTarget at e
    split at e
    · rename_i up
      injection e with e
      exact e ▸ (isUp_iff s _).1 up
    · cases e
  unfold pathLeftUp
  split
  · rename_i active
    split
    · split
      · exact startMigration_sound .failover (h.power.of_same rfl rfl rfl rfl) active other
      · exact startMigration_sound .failover (h.power.of_same rfl rfl rfl rfl) active other
    · rename_i idle
      split
      · refine LeftUp.sound (s := endWait s) (p := p) ?_ idle nofun
        exact { h with power := h.power.of_same rfl rfl rfl rfl, waiting := nofun }
      · rename_i unawaited
        exact h.sound idle fun waits fibre => unawaited ⟨waits, fibre⟩
  · rename_i idle
    have none := h.active idle
    refine h.sound (by rw [none]; nofun) fun waits => ?_
    rw [(h.waiting waits).1] at none
    cases none

/-- The standby condition cannot hold once the fibre has left UP (R106). -/
theorem LeftUp.evalStandby {s : State} (h : LeftUp s .fibre) : LeftUp (evalStandby s) .fibre := by
  rcases evalStandby_cases s with e | ⟨cond, -⟩ | ⟨phase, e⟩
  · rw [e]
    exact h
  · exact absurd (standbyCond_serves cond).2 h.left
  · rw [e]
    have radio (serves : s.swc.service = some .radio) : False := by
      have powered := h.power.powered (.inr (h.up .radio nofun serves))
      rw [powered] at phase
      cases phase
    refine ⟨h.left, powerUp_power h.power (by rw [phase]; nofun), fun q other serves => ?_, h.active,
      fun waits => (radio (h.waiting waits).1).elim⟩
    cases q with
    | fibre => exact absurd rfl other
    | radio => exact (radio serves).elim

theorem flapAppend_service (s : State) : (flapAppend s).service = s.service := by
  unfold flapAppend
  simp only
  split <;> split <;> rfl

/-- A path in TRIAL or UP that goes down has left UP. -/
theorem goDown_left {s : State} {p : Path} (cause : DownCause) (h : s.ServiceSound)
    (tried : (s.pathRec p).health = .trial ∨ (s.pathRec p).health = .up) :
    LeftUp (setRec s p ((s.pathRec p).goDown cause)) p := by
  have down : ((setRec s p ((s.pathRec p).goDown cause)).pathRec p).health = .down := by
    rw [pathRec_setRec_same]
    rfl
  refine ⟨by rw [down]; nofun, ?_, fun q other serves => ?_, h.active, fun waits => ⟨(h.waiting waits).1, fun other => ?_⟩⟩
  · cases p with
    | fibre => exact ⟨h.powered, h.attaching, h.cycling⟩
    | radio => exact ⟨fun up => by rw [down] at up; simp at up, fun runs => ⟨(h.attaching runs).1, .inl rfl⟩,
        fun runs => ⟨(h.cycling runs).1, rfl⟩⟩
  · rw [pathRec_setRec, if_neg other]
    exact h.up q serves
  · rw [pathRec_setRec, if_neg (Ne.symm other)]
    exact (h.waiting waits).2

theorem downEvent_sound {s : State} {p : Path} (cause : DownCause) (h : s.ServiceSound)
    (tried : (s.pathRec p).health = .trial ∨ (s.pathRec p).health = .up) : (downEvent s p cause).ServiceSound := by
  have down : LeftUp (takeFault (setRec s p ((s.pathRec p).goDown cause)) .pathDown (some p) none) p :=
    (goDown_left cause h tried).congr rfl
  have reported {t : State} (left : LeftUp t p) (swc : t.swc.service = s.swc.service ∧ t.swc.state = s.swc.state) :
      (if s.isUp p then pathLeftUp t p else t).ServiceSound := by
    split
    · exact pathLeftUp_sound left
    · rename_i notUp
      have wasNot : (s.pathRec p).health ≠ .up := fun up => notUp ((isUp_iff s p).2 up)
      refine left.sound ?_ ?_
      · rw [swc.1]
        exact fun serves => wasNot (h.up p serves)
      · rw [swc.2]
        rintro waits rfl
        exact wasNot (h.waiting waits).2
  unfold downEvent
  simp only
  cases p with
  | fibre =>
    refine reported (LeftUp.evalStandby (down.congr (flapAppend_service _))) ?_
    obtain ⟨swc, -⟩ := evalStandby_outside
      (flapAppend (takeFault (setRec s .fibre ((s.pathRec .fibre).goDown cause)) .pathDown (some .fibre) none))
    obtain ⟨⟨-, service, state⟩, -⟩ := (service_iff _ _).1 (flapAppend_service
      (takeFault (setRec s .fibre ((s.pathRec .fibre).goDown cause)) .pathDown (some .fibre) none))
    rw [swc, service, state]
    exact ⟨rfl, rfl⟩
  | radio =>
    have attached (phase : s.pmn.power.phase = .powered) : LeftUp { takeFault
        (setRec s .radio ((s.pathRec .radio).goDown cause)) .pathDown (some .radio) none with
          pmn.power.attach := some 0 } .radio :=
      ⟨down.left, ⟨down.power.powered, fun _ => ⟨phase, .inl rfl⟩, down.power.cycling⟩, down.up, down.active,
        down.waiting⟩
    exact reported (kept_ite (P := fun t => LeftUp t .radio) (fun attaches => attached attaches.2) down)
      (kept_ite (P := fun t => t.swc.service = s.swc.service ∧ t.swc.state = s.swc.state) (fun _ => ⟨rfl, rfl⟩) ⟨rfl, rfl⟩)

/-! ### The path monitor -/

theorem setRec_service (s : State) (p : Path) {r : PathRecord} (health : r.health = (s.pathRec p).health) :
    (setRec s p r).service = s.service := by
  rw [service_iff]
  refine ⟨⟨rfl, rfl, rfl⟩, ⟨rfl, rfl, rfl⟩, ?_⟩
  cases p
  · exact ⟨health, rfl⟩
  · exact ⟨rfl, health⟩

theorem applyCause_sound {s : State} (p : Path) (cause : DownCause) (h : s.ServiceSound) :
    (applyCause s p cause).ServiceSound := by
  unfold applyCause
  split
  · rename_i trial
    exact downEvent_sound cause h (.inl trial)
  · rename_i up
    exact downEvent_sound cause h (.inr up)
  · exact kept_ite (fun _ => h.congr (setRec_service s p rfl)) h
  · exact h
  · exact h

theorem terminalIndex_sound {s : State} (p : Path) (h : s.ServiceSound) : (terminalIndex s p).ServiceSound :=
  applyCause_sound p _ (h.calm (takeFault_calm _ _ _ _))

theorem enterTrial_sound {s : State} (p : Path) (h : s.ServiceSound) : (enterTrial s p).ServiceSound := by
  refine kept_ite (fun may => ?_) h
  obtain ⟨down, may⟩ := may
  cases p with
  | fibre =>
    have idle (serves : s.swc.service = some .fibre) : False := by
      rw [h.up .fibre serves] at down
      cases down
    refine { h with up := fun q serves => ?_, waiting := fun waits => ?_ }
    · cases q with
      | fibre => exact (idle serves).elim
      | radio => exact h.up .radio serves
    · rw [(h.waiting waits).2] at down
      cases down
  | radio =>
    have powered : s.pmn.power.phase = .powered := of_decide_eq_true may
    have idle (serves : s.swc.service = some .radio) : False := by
      rw [h.up .radio serves] at down
      cases down
    refine { h with up := fun q serves => ?_, powered := fun _ => powered, attaching := fun _ => ⟨powered, .inr rfl⟩
                    cycling := fun runs => ?_ }
    · cases q with
      | fibre => exact h.up .fibre serves
      | radio => exact (idle serves).elim
    · have cycling := (h.cycling runs).1
      rw [powered] at cycling
      cases cycling

theorem becomeUp_sound {s : State} {p : Path} (h : s.ServiceSound) (trial : (s.pathRec p).health = .trial) :
    (becomeUp s p).ServiceSound := by
  cases p with
  | fibre =>
    refine pathBecameUp_sound .fibre (evalStandby_sound { h with up := fun q serves => ?_, waiting := fun waits => ?_ })
    · cases q with
      | fibre => rfl
      | radio => exact h.up .radio serves
    · exact ⟨(h.waiting waits).1, rfl⟩
  | radio =>
    refine pathBecameUp_sound .radio
      { h with up := fun q serves => ?_, powered := fun _ => h.powered (.inl trial), attaching := fun runs => absurd rfl runs
               cycling := fun runs => ?_ }
    · cases q with
      | fibre => exact h.up .fibre serves
      | radio => rfl
    · have down := (h.cycling runs).2
      rw [trial] at down
      cases down

theorem judge_sound {s : State} (p : Path) (h : s.ServiceSound) : (judge s p).ServiceSound := by
  have counted (r : PathRecord) (health : r.health = (s.pathRec p).health) : (setRec s p r).ServiceSound :=
    h.congr (setRec_service s p health)
  unfold judge
  split
  · rename_i up
    refine kept_ite (fun _ => kept_ite (fun _ => counted _ rfl) (kept_ite (fun _ => ?_) (counted _ rfl))) h
    exact downEvent_sound _ (counted _ rfl) (by rw [pathRec_setRec_same]; exact .inr up)
  · rename_i trial
    unfold judgeTrial
    simp only
    split
    · refine kept_ite (fun _ => becomeUp_sound (counted _ rfl) ?_) (counted _ rfl)
      rw [pathRec_setRec_same]
      exact trial
    · exact h
    · exact h
  · exact kept_ite (fun _ => enterTrial_sound p h) h
  · exact h
  · exact h

theorem badConfirm_sound {s : State} (p : Path) (h : s.ServiceSound) : (badConfirm s p).ServiceSound :=
  applyCause_sound p _ (h.congr (setRec_service s p rfl))

theorem stallExpires_sound {s : State} (p : Path) (h : s.ServiceSound) : (stallExpires s p).ServiceSound := by
  unfold stallExpires
  split
  · rename_i trial
    exact downEvent_sound _ h (.inl trial)
  · rename_i up
    exact downEvent_sound _ h (.inr up)
  · exact h
  · exact h
  · exact h

/-- A down event of the radio out of TRIAL is its record and its fault. -/
theorem downEvent_radioTrial {s : State} (cause : DownCause) (trial : (s.pathRec .radio).health = .trial) :
    downEvent s .radio cause =
      takeFault (setRec s .radio ((s.pathRec .radio).goDown cause)) .pathDown (some .radio) none := by
  have notUp : s.isUp .radio = false := by
    unfold State.isUp
    rw [trial]
    rfl
  simp only [downEvent, notUp, Bool.false_eq_true, false_and, if_false]

/-- The attach timer runs with the radio DOWN or in TRIAL, so it does not serve (R108 to R110). -/
theorem attachExpires_sound {s : State} (runs : s.pmn.power.attach ≠ none) (h : s.ServiceSound) :
    (attachExpires s).ServiceSound := by
  obtain ⟨-, health⟩ := h.attaching runs
  have idle (serves : s.swc.service = some .radio) : False := by
    have up := h.up .radio serves
    rcases health with e | e <;> rw [e] at up <;> cases up
  have out {t : State} (part : t.pcf.part = s.pcf.part) (swc : t.swc = s.swc)
      (fibre : (t.pathRec .fibre).health = (s.pathRec .fibre).health) (power : t.PowerSound) : t.ServiceSound := by
    refine { power with up := fun q serves => ?_, active := ?_, waiting := fun waits => ?_ }
    · rw [swc] at serves
      cases q with
      | fibre => exact fibre.trans (h.up .fibre serves)
      | radio => exact (idle serves).elim
    · rw [part, swc]
      exact h.active
    · rw [swc] at waits
      exact (idle (h.waiting waits).1).elim
  have downPower {t : State} (phase : t.pmn.power.phase = .cycling) (attach : t.pmn.power.attach = none)
      (down : (t.pathRec .radio).health = .down) : ({ t with pmn.power.off := some 0 } : State).PowerSound := by
    refine ⟨fun up => ?_, fun runs => absurd attach runs, fun _ => ⟨phase, down⟩⟩
    have same : (t.pathRec .radio).health = .trial ∨ (t.pathRec .radio).health = .up := up
    rw [down] at same
    simp at same
  unfold attachExpires
  refine kept_ite (fun _ => ?_) ?_
  · refine out rfl rfl rfl ⟨fun up => ?_, fun runs => absurd rfl runs, fun runs => absurd rfl runs⟩
    exact (nofun : ¬ (Health.failed = .trial ∨ Health.failed = .up)) up |>.elim
  · unfold powerCycle
    simp only
    split
    · rename_i trial
      rw [downEvent_radioTrial _ trial]
      exact out rfl rfl rfl (downPower rfl rfl rfl)
    · rename_i other
      exact out rfl rfl rfl (downPower rfl rfl (health.resolve_right other))

theorem powerOffExpires_sound {s : State} (runs : s.pmn.power.off ≠ none) (h : s.ServiceSound) :
    (powerOffExpires s).ServiceSound :=
  { h with
    powered := fun _ => rfl
    attaching := fun _ => ⟨rfl, .inl (h.cycling runs).2⟩
    cycling := fun runs => absurd rfl runs }

/-! ### The zero-time work -/

theorem endMigration_sound {s : State} (h : s.ServiceSound) : (endMigration s).ServiceSound := by
  have triggered {t : State} (ht : t.ServiceSound) : (if t.swc.service = none then arrivalTrigger t
      else if t.swc.service = some .radio then failbackTest t else t).ServiceSound :=
    kept_ite (fun _ => arrivalTrigger_sound ht) (kept_ite (fun _ => failbackTest_sound ht) ht)
  have counted {t : State} (ht : t.ServiceSound) : (match s.swc.kind with
      | some .failover => { t with swc.failovers := satInc 65535 t.swc.failovers }
      | some .failback => { t with swc.failbacks := satInc 65535 t.swc.failbacks }
      | some .arrival => t
      | some .forced => t
      | none => t : State).ServiceSound := by
    split
    · exact { ht with }
    · exact { ht with }
    · exact ht
    · exact ht
    · exact ht
  have released : (settleEngine
      { s with swc.state := .steady, swc.target := none, swc.kind := none, swc.step := none
               ple.claim := .none }).ServiceSound :=
    State.ServiceSound.calm (s := { s with
      swc.state := .steady, swc.target := none, swc.kind := none, swc.step := none, ple.claim := .none })
      { h with waiting := nofun } (settleEngine_calm _)
  have scanned := (released.calm (prompt_calm _)).calm (settleEngine_calm _)
  unfold endMigration
  exact triggered (counted ((kept_ite (fun _ => scanned) released : State.ServiceSound _).congr rfl))

theorem workStep_sound {s t : State} (h : s.ServiceSound) (work : workStep s = some t) : t.ServiceSound := by
  unfold workStep at work
  split at work
  · exact h.calm (engineStep_calm s t work)
  · split at work
    · injection work with granted
      exact granted ▸ h.congr rfl
    · cases work
  · split at work
    · split at work
      · injection work with ended
        exact ended ▸ endMigration_sound h
      · injection work with examined
        exact examined ▸ h.calm (examine_calm s _ _)
    · cases work

theorem runWork_sound (n : Nat) {s : State} (h : s.ServiceSound) : (runWork n s).ServiceSound := by
  induction n generalizing s with
  | zero => exact h
  | succ n ih =>
    unfold runWork
    split
    · exact h
    · rename_i t work
      exact ih (workStep_sound h work)

theorem settleWork_serviceSound {s : State} (h : s.ServiceSound) : (settleWork s).ServiceSound :=
  (runWork_sound _ h).calm (syncTimers_calm _)

/-! ### Near words, completions and commands -/

theorem takeTxConsumer_serviceSound {s : State} (p : Path) (v : Word) (h : s.ServiceSound) :
    (takeTxConsumer s p v).ServiceSound := by
  have passed := h.calm (passLoop_calm p (advance v (s.ring p).consumer) (s.ring p).consumer s)
  refine kept_ite (fun _ => ?_) (terminalIndex_sound p h)
  refine kept_ite (fun _ => { passed with }) (State.ServiceSound.calm ?_ (endRingWait_calm _ p))
  refine State.ServiceSound.calm ?_ (restartStall_calm _ p)
  exact { passed with }

theorem takeRxProducer_serviceSound {s : State} (p : Path) (v : Word) (h : s.ServiceSound) :
    (takeRxProducer s p v).ServiceSound := by
  refine kept_ite (fun _ => kept_ite (fun _ => h.congr rfl) ?_) (terminalIndex_sound p h)
  exact (h.calm (arrival_calm s p _ _)).calm (assignRun_calm _)

theorem takeWord_serviceSound {s : State} (c : NearCycle) (a : Addr) (v : Word) (h : s.ServiceSound) :
    (takeWord s c a v).ServiceSound := by
  have header (w : Nat) : (takeHeader s w v).ServiceSound := by
    unfold takeHeader
    split
    · exact h.calm (takePost_calm s v)
    · exact h.calm (takeReclaim_calm s v)
    · exact h.calm (takeRelease_calm s v)
    · exact takeTxConsumer_serviceSound .fibre v h
    · exact takeRxProducer_serviceSound .fibre v h
    · exact takeTxConsumer_serviceSound .radio v h
    · exact takeRxProducer_serviceSound .radio v h
    · exact h
  unfold takeWord
  refine kept_ite (fun _ => ?_) h
  split
  · exact kept_ite (fun _ => h.calm (lateWrite_calm s c _)) h
  · exact kept_ite (fun _ => header _) h
  · exact kept_ite (fun _ => h.calm (takeFetch_calm s _ _)) h
  · exact kept_ite (fun _ => h.calm (takeCompletion_calm s _ _ v)) h
  · exact kept_ite (fun _ => h.calm (meterRx_calm s _)) h
  · exact h

theorem startService_up {s : State} {q : Path} (h : s.startService = some q) : (s.pathRec q).health = .up := by
  unfold State.startService at h
  split at h
  · rename_i up
    injection h with h
    exact h ▸ (isUp_iff s _).1 up
  · split at h
    · rename_i up
      injection h with h
      exact h ▸ (isUp_iff s _).1 up
    · cases h

/-- START serves by a path that is UP, or by none (R136). -/
theorem becomeActive_sound {s : State} (h : s.ServiceSound) (idle : s.pcf.part ≠ .active) : (becomeActive s).ServiceSound := by
  have none := h.active idle
  have begun : (clearSilence (clearSilence
      { s with pcf.part := .active, umt.pool := s.sdc.settings.metering.ceiling } .fibre) .radio).PowerSound :=
    ⟨h.powered, h.attaching, h.cycling⟩
  have served := setService_sound _ begun (.inl rfl) (fun _ => startService_up) fun waits => by
    have radio := (h.waiting waits).1
    rw [none] at radio
    cases radio
  exact settleWork_serviceSound (kept_ite (fun _ => served.calm (takeFault_calm _ _ _ _)) served)

theorem startWriteDone_sound {s : State} (a : Access) (h : s.ServiceSound) : (startWriteDone s a).ServiceSound := by
  unfold startWriteDone
  split
  · exact h.congr rfl
  · exact h.congr rfl
  · exact h.congr rfl
  · exact h.congr rfl
  · exact kept_ite (fun starting => becomeActive_sound h (by rw [starting]; nofun)) h

theorem enterHalted_serviceSound {s : State} (h : s.ServiceSound) : (enterHalted s).ServiceSound :=
  (setService_sound (s := s.halting) none (h.power.of_same rfl rfl rfl rfl) (.inr rfl) nofun nofun).calm
    (syncTimers_calm _)

theorem refusal_none_iff {c : Prop} [Decidable c] {r : RefusalCause} {o : Option RefusalCause} :
    (if c then some r else o) = none ↔ ¬ c ∧ o = none := by
  split <;> simp [*]

/-- A path named by FORCE_PATH is UP when the command is taken (R126). -/
theorem forceRefusal_none {s : State} {v : Word} {p : Path} (named : forcedPath v = some p)
    (taken : forceRefusal v s = none) : s.pcf.part = .active ∧ (s.pathRec p).health = .up := by
  simp only [forceRefusal, named, refusal_none_iff] at taken
  obtain ⟨active, -, -, up, -⟩ := taken
  exact ⟨not_not.mp active, (isUp_iff s p).1 (Bool.eq_true_of_not_eq_false up)⟩

theorem takeForce_serviceSound {s : State} (v : Word) (taken : forceRefusal v s = none) (h : s.ServiceSound) :
    (takeForce v s).ServiceSound := by
  unfold takeForce
  split
  · exact settleWork_serviceSound (failbackTest_sound (h.congr rfl))
  · rename_i p named
    obtain ⟨active, up⟩ := forceRefusal_none named taken
    have forced : State.ServiceSound { s with swc.force := some p } := h.congr rfl
    refine kept_ite (fun _ => kept_ite (fun _ => endWait_sound forced) forced) (settleWork_serviceSound ?_)
    refine startMigration_sound .forced (State.PowerSound.congr h.power rfl) active ?_
    rintro q ⟨⟩
    exact up

theorem takeFailbackNow_serviceSound {s : State} (taken : failbackNowRefusal s = none) (h : s.ServiceSound) :
    (takeFailbackNow s).ServiceSound := by
  simp only [failbackNowRefusal, refusal_none_iff, not_or] at taken
  obtain ⟨active, -, -, ⟨-, up⟩, -⟩ := taken
  refine settleWork_serviceSound (startMigration_sound .failback (h.power.of_same rfl rfl rfl rfl) (not_not.mp active) ?_)
  rintro q ⟨⟩
  exact (isUp_iff s .fibre).1 (Bool.eq_true_of_not_eq_false up)

theorem takeFailbackMode_serviceSound {s : State} (v : Word) (h : s.ServiceSound) :
    (takeFailbackMode v s).ServiceSound :=
  kept_ite (fun _ => settleWork_serviceSound (failbackTest_sound (h.congr rfl)))
    (kept_ite (fun _ => (endWait_sound (s := { s with swc.mode := .manual }) (h.congr rfl)).congr rfl) (h.congr rfl))

theorem radioRestartRefusal_none {s : State} (taken : radioRestartRefusal s = none) :
    s.pmn.power.phase = .failed ∨ s.pmn.power.phase = .standby := by
  unfold radioRestartRefusal at taken
  split at taken
  · exact .inl ‹_›
  · exact .inr ‹_›
  · cases taken
  · cases taken

theorem takeRadioRestart_serviceSound {s : State} (taken : radioRestartRefusal s = none) (h : s.ServiceSound) :
    (takeRadioRestart s).ServiceSound := by
  have phase := radioRestartRefusal_none taken
  have idle (serves : s.swc.service = some .radio) : False := by
    have powered := h.powered (.inr (h.up .radio serves))
    rcases phase with e | e <;> rw [e] at powered <;> cases powered
  have power : (powerUp { s with pmn.power.retry := 0 }).PowerSound :=
    powerUp_power (h.power.congr rfl) (by rcases phase with e | e <;> rw [e] <;> nofun)
  have powered : (powerUp { s with pmn.power.retry := 0 }).ServiceSound := by
    refine { power with up := fun q serves => ?_, active := h.active, waiting := fun waits => ?_ }
    · cases q with
      | fibre => exact h.up .fibre serves
      | radio => exact (idle serves).elim
    · exact (idle (h.waiting waits).1).elim
  exact kept_ite (fun _ => evalStandby_sound (powered.congr rfl)) powered

/-! ### Every step -/

/-- Every operation of a command keeps the service path sound. -/
theorem serviceSound_kept : Kept State.ServiceSound where
  free := by
    intro s t h core far
    refine h.calm (Calm.of_view ?_)
    simp only [State.core, State.farCore, Prod.mk.injEq] at core far
    simp only [State.calmView, core, far]
  fault c p i h := h.calm (takeFault_calm _ c p i)
  charge h := h.congr rfl
  streak h := h.congr rfl
  hold _ h := h.congr rfl
  requests _ h := h.congr rfl
  settle := settleWork_serviceSound
  word c a v h := takeWord_serviceSound c a v h
  halt _ h := enterHalted_serviceSound h
  readDone {s} d a _ h := by
    unfold readDone
    split
    · exact h
    · exact settleWork_serviceSound (h.calm ((takeRead_calm s _ d).trans (decideOp_calm _ _)))
  copyDone {s} a _ h := by
    unfold copyDone
    split
    · exact h
    · exact settleWork_serviceSound (h.calm (publish_calm s _))
  withdrawalDone {s} a _ h := by
    unfold withdrawalDone
    split
    · exact h
    · exact settleWork_serviceSound (h.calm (withdrawn_calm s _))
  serviceWriteDone a _ h := h.calm (serviceWriteDone_calm _ a)
  startReadDone v a _ h := h.calm (startReadDone_calm v _ a)
  startWriteDone a _ h := startWriteDone_sound a h
  judge := judge_sound
  trial := enterTrial_sound
  confirm := badConfirm_sound
  stall := stallExpires_sound
  attach := attachExpires_sound
  powerOff := powerOffExpires_sound
  standby := evalStandby_sound
  flaps h := h.congr rfl
  ages h := h.calm (deferralTick_calm _)
  quiet a h := by
    cases a with
    | voice => exact testWait_sound (h.congr rfl)
    | emergency => exact testWait_sound (h.congr rfl)
  wait h := testWait_sound (h.congr rfl)
  regime h := h.calm (computeRegime_calm _)
  meters _ _ _ h := h.congr rfl
  refill h := h.calm (refill_calm _)
  tick {s} h := by
    have running (t : Timer) (runs : t.tick ≠ none) : t ≠ none := fun stopped => runs (congrArg Timer.tick stopped)
    exact { h with
      attaching := fun runs => h.attaching (running _ runs)
      cycling := fun runs => h.cycling (running _ runs)
      up := fun p => by
        cases p
        · exact h.up .fibre
        · exact h.up .radio }
  bus _ _ h := h.congr rfl
  resize {s} g i _ h := by
    refine h.congr ?_
    unfold resizeTables
    split <;> rfl
  ceiling _ h := h.congr rfl
  start {s} taken h := by
    have config : s.pcf.part ≠ .active := by
      intro active
      rw [startRefusal_state s (by rw [active]; nofun)] at taken
      cases taken
    exact { h with active := fun _ => h.active config }
  force := takeForce_serviceSound
  failbackNow := takeFailbackNow_serviceSound
  failbackMode := takeFailbackMode_serviceSound
  radioRestart := takeRadioRestart_serviceSound
  clearFaults h := h.congr rfl

/-- RECONFIGURE is taken with no service path (R190). -/
theorem takeReconfigure_serviceSound {s : State} (taken : reconfigureRefusal s = none) (h : s.ServiceSound) :
    (takeReconfigure s).ServiceSound := by
  have idle : s.pcf.part ≠ .active := by
    intro active
    rw [reconfigureRefusal, active] at taken
    cases taken
  exact { h with active := fun _ => h.active idle }

/-- Settles O56: every operation of a command keeps the service path sound (`serviceSound_kept`): a path that leaves UP is
reported to the switch (`pathLeftUp_sound`), and a migration starts toward NONE or a path that is UP
(`startMigration_sound`). -/
theorem servicePathStaysUp : Obligations.ServicePathStaysUp := by
  intro s t h e
  refine serviceSound_kept.step (fun l q => ?_) (fun l q => ?_) (fun _ taken hu => takeReconfigure_serviceSound taken hu) h e
  · exact
      { up := nofun, active := fun _ => rfl, waiting := nofun, powered := nofun, attaching := fun runs => absurd rfl runs
        cycling := fun runs => absurd rfl runs }
  · exact
      { up := nofun, active := fun _ => rfl, waiting := nofun, powered := fun _ => rfl
        attaching := fun _ => ⟨rfl, .inl rfl⟩, cycling := fun runs => absurd rfl runs }

end Sys2Proof.Machine

/-! SUPPORT. What stands still in HALTED: no unit's operation there touches the slot map, the merge unit, the placement engine,
the short-write list or the copy request (R189). -/

namespace Sys2Proof.Machine

/-- What a command may not change in HALTED. -/
def State.frozen (s : State) : (PartState × Tsm × Rmu × Ple) × (List Access × Option Access) ×
    (BusSettings × Geometry) × (Option Path × SwitchState) :=
  ((s.pcf.part, s.tsm, s.rmu, s.ple), (s.fsp.list, s.fsp.copyReq), (s.sdc.settings.bus, s.sdc.settings.geometry),
    (s.swc.service, s.swc.state))

/-- The state has what was frozen at the halt, and byte meters that have not risen. -/
structure StandsStill (a s : State) : Prop where
  frozen : s.frozen = a.frozen
  tx : s.umt.tx.toNat ≤ a.umt.tx.toNat
  rx : s.umt.rx.toNat ≤ a.umt.rx.toNat

/-- The switch of a halted part: no service path and no failback wait. -/
structure State.Idled (a : State) : Prop where
  part : a.pcf.part = .halted
  service : a.swc.service = none
  unwaited : a.swc.state ≠ .waiting

theorem StandsStill.refl (a : State) : StandsStill a a := ⟨rfl, Nat.le_refl _, Nat.le_refl _⟩

theorem StandsStill.of_same {a s t : State} (h : StandsStill a s) (same : t.frozen = s.frozen)
    (tx : t.umt.tx = s.umt.tx) (rx : t.umt.rx = s.umt.rx) : StandsStill a t :=
  ⟨same.trans h.frozen, tx ▸ h.tx, rx ▸ h.rx⟩

theorem StandsStill.idled {a s : State} (h : StandsStill a s) (idle : a.Idled) : s.Idled := by
  have same := h.frozen
  simp only [State.frozen, Prod.mk.injEq] at same
  obtain ⟨⟨part, -⟩, -, -, service, state⟩ := same
  exact ⟨part.trans idle.part, service.trans idle.service, state ▸ idle.unwaited⟩

theorem State.Idled.inactive {s : State} (h : s.Idled) : s.pcf.part ≠ .active := by
  rw [h.part]
  nofun

/-! ### The switch and the engine do nothing in HALTED -/

theorem pathLeftUp_inactive {s : State} (p : Path) (h : s.pcf.part ≠ .active) : pathLeftUp s p = s := if_neg h

theorem arrivalTrigger_inactive {s : State} (h : s.pcf.part ≠ .active) : arrivalTrigger s = s :=
  if_neg fun ready => h ready.1

theorem failbackTest_inactive {s : State} (h : s.pcf.part ≠ .active) : failbackTest s = s :=
  if_neg fun ready => h ready.1

theorem pathBecameUp_inactive {s : State} (p : Path) (h : s.pcf.part ≠ .active) : pathBecameUp s p = s := by
  unfold pathBecameUp
  rw [arrivalTrigger_inactive h]
  cases p
  · exact failbackTest_inactive h
  · rfl

theorem prompt_inactive {s : State} (h : s.pcf.part ≠ .active) : prompt s = s := if_neg fun ready => h ready.1

theorem settleWork_inactive {s : State} (h : s.pcf.part ≠ .active) : settleWork s = syncTimers s :=
  settleWork_rest s (workStep_inactive s h)

section
variable {a s : State} (idle : a.Idled)
include idle

theorem settleWork_still (h : StandsStill a s) : StandsStill a (settleWork s) := by
  rw [settleWork_inactive (h.idled idle).inactive]
  have stalls {u : State} (p : Path) (hu : StandsStill a u) : StandsStill a (syncStall u p) := by
    rw [syncStall_stall]
    exact hu.of_same rfl rfl rfl
  unfold syncTimers
  rw [syncStreak_eq]
  exact (stalls .radio (stalls .fibre h)).of_same rfl rfl rfl

theorem testWait_still (h : StandsStill a s) : StandsStill a (testWait s) :=
  kept_ite (fun ready => absurd ready.1 (h.idled idle).unwaited) h

/-! ### The path monitor -/

omit idle in
theorem evalStandby_still (h : StandsStill a s) : StandsStill a (evalStandby s) := by
  rw [(evalStandby_frame s).1]
  exact h.of_same rfl rfl rfl

omit idle in
theorem flapAppend_still (h : StandsStill a s) : StandsStill a (flapAppend s) :=
  kept_ite (fun _ => h.of_same rfl rfl rfl) (h.of_same rfl rfl rfl)

theorem downEvent_still (p : Path) (cause : DownCause) (h : StandsStill a s) : StandsStill a (downEvent s p cause) := by
  have down : StandsStill a (takeFault (setRec s p ((s.pathRec p).goDown cause)) .pathDown (some p) none) :=
    h.of_same rfl rfl rfl
  have reported {t : State} (ht : StandsStill a t) : StandsStill a (if s.isUp p then pathLeftUp t p else t) := by
    rw [pathLeftUp_inactive p (ht.idled idle).inactive]
    exact kept_ite (fun _ => ht) ht
  unfold downEvent
  cases p with
  | fibre => exact reported (evalStandby_still (flapAppend_still down))
  | radio => exact reported (kept_ite (fun _ => down.of_same rfl rfl rfl) down)

theorem applyCause_still (p : Path) (cause : DownCause) (h : StandsStill a s) :
    StandsStill a (applyCause s p cause) := by
  unfold applyCause
  split
  · exact downEvent_still idle p cause h
  · exact downEvent_still idle p cause h
  · exact kept_ite (fun _ => h.of_same rfl rfl rfl) h
  · exact h
  · exact h

theorem becomeUp_still (p : Path) (h : StandsStill a s) : StandsStill a (becomeUp s p) := by
  have reported {t : State} (ht : StandsStill a t) : StandsStill a (pathBecameUp t p) := by
    rw [pathBecameUp_inactive p (ht.idled idle).inactive]
    exact ht
  cases p with
  | fibre => exact reported (evalStandby_still (h.of_same rfl rfl rfl))
  | radio => exact reported (h.of_same rfl rfl rfl)

omit idle in
theorem enterTrial_still (p : Path) (h : StandsStill a s) : StandsStill a (enterTrial s p) :=
  kept_ite (fun _ => h.of_same rfl rfl rfl) h

theorem judge_still (p : Path) (h : StandsStill a s) : StandsStill a (judge s p) := by
  unfold judge
  split
  · exact kept_ite (fun _ => kept_ite (fun _ => h.of_same rfl rfl rfl)
      (kept_ite (fun _ => downEvent_still idle p _ (h.of_same rfl rfl rfl)) (h.of_same rfl rfl rfl))) h
  · unfold judgeTrial
    simp only
    split
    · exact kept_ite (fun _ => becomeUp_still idle p (h.of_same rfl rfl rfl)) (h.of_same rfl rfl rfl)
    · exact h
    · exact h
  · exact kept_ite (fun _ => enterTrial_still p h) h
  · exact h
  · exact h

theorem stallExpires_still (p : Path) (h : StandsStill a s) : StandsStill a (stallExpires s p) := by
  unfold stallExpires
  split
  · exact downEvent_still idle p _ h
  · exact downEvent_still idle p _ h
  · exact h
  · exact h
  · exact h

theorem powerCycle_still (h : StandsStill a s) : StandsStill a (powerCycle s) := by
  have cycled {t : State} (ht : StandsStill a t) :
      StandsStill a (if (t.pathRec .radio).health = .trial then downEvent t .radio .powerCycle else t) :=
    kept_ite (fun _ => downEvent_still idle .radio _ ht) ht
  have cycling : StandsStill a { s with pmn.power.phase := .cycling, pmn.power.attach := none } := h.of_same rfl rfl rfl
  exact (cycled cycling).of_same rfl rfl rfl

theorem attachExpires_still (h : StandsStill a s) : StandsStill a (attachExpires s) :=
  kept_ite (fun _ => h.of_same rfl rfl rfl) (powerCycle_still idle (h.of_same rfl rfl rfl))

/-! ### The meters and the commands -/

theorem computeRegime_still (h : StandsStill a s) : StandsStill a (computeRegime s) := by
  have raised : StandsStill a (raiseAlert { s with umt.regime := s.regimeNow } .regime) := h.of_same rfl rfl rfl
  refine kept_ite (fun _ => h) ?_
  rw [prompt_inactive (raised.idled idle).inactive]
  exact raised

theorem refill_still (h : StandsStill a s) : StandsStill a (refill s) := by
  refine kept_ite (fun radio => ?_) (h.of_same rfl rfl rfl)
  have serves : s.swc.service = some .radio := radio
  rw [(h.idled idle).service] at serves
  cases serves

theorem failbackTest_still (h : StandsStill a s) : StandsStill a (failbackTest s) := by
  rw [failbackTest_inactive (h.idled idle).inactive]
  exact h

theorem takeForce_still (v : Word) (taken : forceRefusal v s = none) (h : StandsStill a s) :
    StandsStill a (takeForce v s) := by
  unfold takeForce
  split
  · exact settleWork_still idle (failbackTest_still idle (h.of_same rfl rfl rfl))
  · rename_i p named
    exact absurd (forceRefusal_none named taken).1 (h.idled idle).inactive

theorem takeFailbackMode_still (v : Word) (h : StandsStill a s) : StandsStill a (takeFailbackMode v s) := by
  refine kept_ite (fun _ => settleWork_still idle (failbackTest_still idle (h.of_same rfl rfl rfl)))
    (kept_ite (fun waits => ?_) (h.of_same rfl rfl rfl))
  exact absurd waits (h.idled idle).unwaited

/-- Every operation of a command leaves a halted part's tables as they are. -/
theorem standsStill_kept : Kept (StandsStill a) where
  free := by
    intro s t h core far
    simp only [State.core, State.farCore, Prod.mk.injEq] at core far
    exact h.of_same (by simp only [State.frozen, core, far]) (by simp only [core]) (by simp only [core])
  fault _ _ _ h := h.of_same rfl rfl rfl
  charge h := h.of_same rfl rfl rfl
  streak h := h.of_same rfl rfl rfl
  hold _ h := h.of_same rfl rfl rfl
  requests running h := absurd (h.idled idle).part running
  settle := settleWork_still idle
  word {s} c b v h := by
    rw [takeWord_inactive s c b v (.inl (h.idled idle).inactive)]
    exact h
  halt running h := absurd (h.idled idle).part running
  readDone _ _ running h := absurd (h.idled idle).part running
  copyDone _ running h := absurd (h.idled idle).part running
  withdrawalDone _ running h := absurd (h.idled idle).part running
  serviceWriteDone _ running h := absurd (h.idled idle).part running
  startReadDone _ _ running h := absurd (h.idled idle).part running
  startWriteDone _ running h := absurd (h.idled idle).part running
  judge := judge_still idle
  trial := enterTrial_still
  confirm p h := applyCause_still idle p _ (h.of_same rfl rfl rfl)
  stall := stallExpires_still idle
  attach _ h := attachExpires_still idle h
  powerOff _ h := h.of_same rfl rfl rfl
  standby := evalStandby_still
  flaps h := h.of_same rfl rfl rfl
  ages {s} h := by
    have checked : s.ageChecked = false := by simp [State.ageChecked, (h.idled idle).part]
    refine kept_ite (fun check => ?_) (h.of_same rfl rfl rfl)
    rw [checked] at check
    cases check
  quiet b h := by
    cases b with
    | voice => exact testWait_still idle (h.of_same rfl rfl rfl)
    | emergency => exact testWait_still idle (h.of_same rfl rfl rfl)
  wait h := testWait_still idle (h.of_same rfl rfl rfl)
  regime := computeRegime_still idle
  meters tx rx lower h := by
    obtain ⟨lowTx, lowRx⟩ := lower.resolve_right fun config => nomatch config.symm.trans (h.idled idle).part
    exact ⟨h.frozen, lowTx.trans h.tx, lowRx.trans h.rx⟩
  refill := refill_still idle
  tick h := h.of_same rfl rfl rfl
  bus _ config h := nomatch config.symm.trans (h.idled idle).part
  resize _ _ config h := nomatch config.symm.trans (h.idled idle).part
  ceiling _ h := h.of_same rfl rfl rfl
  start {s} taken h := by
    rw [startRefusal_state s (by rw [(h.idled idle).part]; nofun)] at taken
    cases taken
  force := takeForce_still idle
  failbackNow taken h := by
    simp only [failbackNowRefusal, refusal_none_iff] at taken
    exact absurd (not_not.mp taken.1) (h.idled idle).inactive
  failbackMode := takeFailbackMode_still idle
  radioRestart _ h := by
    exact kept_ite (fun _ => evalStandby_still (h.of_same rfl rfl rfl)) (h.of_same rfl rfl rfl)
  clearFaults h := h.of_same rfl rfl rfl

end

/-- Only RECONFIGURE writes item 2 of group 6. -/
theorem writeOf_reconfigure {c : Instr} {tag : Tag} {addr : Addr} {v : Word} (write : writeOf c = some (tag, addr, v))
    (wf : c.wf = true) (other : isReconfigure c = false) : ¬ (settingGroup addr = 6 ∧ settingItem addr = 2) := by
  rintro ⟨group, item⟩
  have differs (g i : BitVec 4) (x : BitVec 8) (e : settingAddr g i x = addr) : g = 6 ∧ i = 2 := by
    rw [← e, settingGroup_settingAddr] at group
    rw [← e, settingItem_settingAddr] at item
    exact ⟨group, item⟩
  cases c
  case capSetting cap _ _ _ => cases cap <;> cases write <;> exact absurd (differs _ _ _ rfl) (by decide)
  all_goals cases write
  case settingWrite =>
    have own : Instr.ownWriteRow (settingGroup addr).toNat (settingItem addr).toNat = true := by
      rw [group, item]
      rfl
    exact nomatch wf.symm.trans (congrArg not own)
  case reconfigure => exact nomatch other
  all_goals exact absurd (differs _ _ _ rfl) (by decide)

/-- Settles O59: in HALTED the part's state, switch and tables stand still through every operation of a command
(`standsStill_kept`), and the walk over the commands carries it (`Kept.exec_plain`, `Kept.exec_setting`). -/
theorem haltedMapsAreFrozen : Obligations.HaltedMapsAreFrozen := by
  intro c s t sound part wf steady other e
  have service := sound.active (by rw [part]; nofun)
  have idle : s.Idled := ⟨part, service, fun waits => by
    have radio := (sound.waiting waits).1
    rw [service] at radio
    cases radio⟩
  have still : StandsStill s t := by
    cases write : writeOf c with
    | none => exact (standsStill_kept idle).exec_plain write steady (.refl s) e
    | some w =>
      exact (standsStill_kept idle).exec_setting write
        (fun group item => absurd ⟨group, item⟩ (writeOf_reconfigure write wf other)) (.refl s) e
  have same := still.frozen
  simp only [State.frozen, Prod.mk.injEq] at same
  obtain ⟨⟨frozenPart, tsm, rmu, ple⟩, ⟨list, copy⟩, ⟨bus, geometry⟩, -⟩ := same
  exact ⟨frozenPart.trans part, tsm, rmu, ple, list, copy, still.tx, still.rx, bus, geometry⟩

end Sys2Proof.Machine

/-! SUPPORT. Posts and reclaims: the entries met from a record on, the loops that replace them, and what is raised where fewer
are met than the advance (R23 to R25). -/

namespace Sys2Proof.Machine

/-! ### The first positions that pass a test -/

/-- How many of the first `n` positions pass a test one after another. -/
def runLength (p : Nat → Bool) (n : Nat) : Nat := ((List.range n).takeWhile p).length

theorem runLength_le (p : Nat → Bool) (n : Nat) : runLength p n ≤ n :=
  Nat.le_trans (List.takeWhile_prefix _).length_le (Nat.le_of_eq List.length_range)

theorem runLength_succ (p : Nat → Bool) (n : Nat) :
    runLength p (n + 1) = if p 0 then runLength (fun j => p (j + 1)) n + 1 else 0 := by
  simp only [runLength, List.range_succ_eq_map, List.takeWhile_cons, List.takeWhile_map]
  split
  · simp only [List.length_cons, List.length_map, Function.comp_def, Nat.succ_eq_add_one]
  · rfl

theorem runLength_congr {p q : Nat → Bool} {n : Nat} (same : ∀ j, j < n → p j = q j) : runLength p n = runLength q n := by
  induction n generalizing p q with
  | zero => rfl
  | succ n ih =>
    rw [runLength_succ, runLength_succ, same 0 n.succ_pos, ih fun j hj => same (j + 1) (Nat.succ_lt_succ hj)]

/-! ### Entries replaced one after another -/

/-- A list with `k` of its positions replaced, in turn. -/
def setRun {α : Type} (slot : Nat → Nat) (e : Nat → α) (k : Nat) (l : List α) : List α :=
  (List.range k).foldl (fun l j => l.set (slot j) (e j)) l

section
variable {α : Type} (slot : Nat → Nat) (e : Nat → α) (l : List α)

theorem setRun_zero : setRun slot e 0 l = l := rfl

theorem setRun_last (k : Nat) : setRun slot e (k + 1) l = (setRun slot e k l).set (slot k) (e k) := by
  simp only [setRun, List.range_succ, List.foldl_append, List.foldl_cons, List.foldl_nil]

theorem setRun_first (k : Nat) :
    setRun slot e (k + 1) l = setRun (fun j => slot (j + 1)) (fun j => e (j + 1)) k (l.set (slot 0) (e 0)) := by
  simp only [setRun, List.range_succ_eq_map, List.foldl_cons, List.foldl_map, Nat.succ_eq_add_one]

theorem length_setRun (k : Nat) : (setRun slot e k l).length = l.length := by
  induction k with
  | zero => rfl
  | succ k ih => rw [setRun_last, List.length_set, ih]

theorem getD_setRun_other {k i : Nat} (d : α) (other : ∀ j, j < k → i ≠ slot j) :
    (setRun slot e k l).getD i d = l.getD i d := by
  induction k with
  | zero => rfl
  | succ k ih =>
    have differ : ¬ slot k = i := (other k k.lt_succ_self).symm
    rw [setRun_last, ← ih fun j hj => other j (Nat.lt_succ_of_lt hj)]
    simp [List.getD, differ]

theorem getD_setRun_same {k j : Nat} (d : α) (distinct : ∀ i j, i < j → j < k → slot j ≠ slot i)
    (inside : ∀ j, j < k → slot j < l.length) (hj : j < k) : (setRun slot e k l).getD (slot j) d = e j := by
  induction k with
  | zero => exact absurd hj j.not_lt_zero
  | succ k ih =>
    rw [setRun_last]
    by_cases last : j = k
    · subst last
      have within : slot j < (setRun slot e j l).length := by
        rw [length_setRun]
        exact inside j hj
      simp [List.getD, within]
    · have before : j < k := by omega
      have differ : slot k ≠ slot j := distinct j k before k.lt_succ_self
      rw [← ih (fun i j hij h => distinct i j hij (Nat.lt_succ_of_lt h)) (fun j h => inside j (Nat.lt_succ_of_lt h)) before]
      simp [List.getD, differ]

end

/-! ### The ring of service transmit slots -/

theorem svcTxSize_pos (s : State) : 0 < s.svcTxSize := Nat.mul_pos (Nat.succ_pos 31) (Nat.two_pow_pos _)

/-- The service slot that an index names after `j` others. -/
def State.txSlot (s : State) (a : Word) (j : Nat) : Nat := slotOf (a + BitVec.ofNat 16 j) s.svcTxSize

theorem txSlot_zero (s : State) (a : Word) : s.txSlot a 0 = slotOf a s.svcTxSize := by rw [State.txSlot, word_add_zero]

theorem txSlot_succ (s : State) (a : Word) (j : Nat) : s.txSlot (a + 1) j = s.txSlot a (j + 1) :=
  congrArg (slotOf · s.svcTxSize) (word_add_succ a j).symm

theorem txSlot_lt {s : State} (size : s.tsm.entries.length = s.svcTxSize) (a : Word) (j : Nat) :
    s.txSlot a j < s.tsm.entries.length := size ▸ Nat.mod_lt _ (svcTxSize_pos s)

theorem txSlot_ne {s : State} (code : s.sdc.settings.geometry.svcTx.size ≤ 3) (a : Word) {i j : Nat} (hij : i < j)
    (hj : j < s.svcTxSize) : s.txSlot a j ≠ s.txSlot a i := slotOf_add_ne (serviceSlots_dvd code) a hij hj

/-! ### Posts (R23, R24) -/

/-- The entry a post makes of the `j`-th FREE one. -/
def State.postedEntry (s : State) (j : Nat) : TxEntry :=
  { freeEntry with state := .posted, seq := some (s.tsm.seqCtr + BitVec.ofNat 16 j) }

/-- The state with `k` entries from the post record on POSTED and queued, and the records moved past them. -/
def State.postedBy (s : State) (k : Nat) : State :=
  { s with
    tsm.entries := setRun (s.txSlot s.tsm.post) s.postedEntry k s.tsm.entries
    tsm.post := s.tsm.post + BitVec.ofNat 16 k
    tsm.seqCtr := s.tsm.seqCtr + BitVec.ofNat 16 k
    ple.placementQ := s.ple.placementQ ++ (List.range k).map (s.txSlot s.tsm.post) }

theorem postedBy_zero (s : State) : s.postedBy 0 = s := by
  simp only [State.postedBy, setRun_zero, word_add_zero, List.range_zero, List.map_nil, List.append_nil]

/-- Posting one entry, then `k` from the moved post record on. -/
theorem postedBy_one_postedBy (s : State) (k : Nat) : (s.postedBy 1).postedBy k = s.postedBy (k + 1) := by
  have slots (j : Nat) : (s.postedBy 1).txSlot (s.postedBy 1).tsm.post j = s.txSlot s.tsm.post (j + 1) :=
    txSlot_succ s s.tsm.post j
  have posted (j : Nat) : (s.postedBy 1).postedEntry j = s.postedEntry (j + 1) := by
    rw [State.postedEntry, State.postedEntry, word_add_succ]
    rfl
  have entries : setRun ((s.postedBy 1).txSlot (s.postedBy 1).tsm.post) (s.postedBy 1).postedEntry k
      (s.postedBy 1).tsm.entries = setRun (s.txSlot s.tsm.post) s.postedEntry (k + 1) s.tsm.entries := by
    rw [setRun_first, funext slots, funext posted]
    rfl
  have queue : (s.postedBy 1).ple.placementQ ++ (List.range k).map ((s.postedBy 1).txSlot (s.postedBy 1).tsm.post) =
      s.ple.placementQ ++ (List.range (k + 1)).map (s.txSlot s.tsm.post) := by
    rw [funext slots, List.range_succ_eq_map, List.map_cons, List.map_map]
    simp only [State.postedBy, List.range_one, List.map_cons, List.map_nil, List.append_assoc, List.singleton_append]
    rfl
  have post : (s.postedBy 1).tsm.post + BitVec.ofNat 16 k = s.tsm.post + BitVec.ofNat 16 (k + 1) :=
    (word_add_succ s.tsm.post k).symm
  have seq : (s.postedBy 1).tsm.seqCtr + BitVec.ofNat 16 k = s.tsm.seqCtr + BitVec.ofNat 16 (k + 1) :=
    (word_add_succ s.tsm.seqCtr k).symm
  unfold State.postedBy at entries queue post seq ⊢
  simp only [entries, queue, post, seq]

/-- Entries met FREE from the post record on, by their positions. -/
theorem freeRun_eq (s : State) (n : Nat) :
    s.freeRun n = runLength (fun j => decide ((s.entry (s.txSlot s.tsm.post j)).state = .free)) n := rfl

/-- A post leaves the entries of the turn's other slots. -/
theorem entry_postedBy_one {s : State} (code : s.sdc.settings.geometry.svcTx.size ≤ 3) {j : Nat}
    (hj : j + 1 < s.svcTxSize) :
    (s.postedBy 1).entry (s.txSlot s.tsm.post (j + 1)) = s.entry (s.txSlot s.tsm.post (j + 1)) := by
  refine getD_setRun_other _ _ _ _ fun i hi => ?_
  obtain rfl : i = 0 := by omega
  exact txSlot_ne code _ j.succ_pos hj

/-- The post loop posts the FREE entries met, and counts them. -/
theorem postLoop_eq (n : Nat) {s : State} (code : s.sdc.settings.geometry.svcTx.size ≤ 3) (h : n ≤ s.svcTxSize) :
    postLoop n s = (s.freeRun n, s.postedBy (s.freeRun n)) := by
  induction n generalizing s with
  | zero => exact Prod.ext rfl (postedBy_zero s).symm
  | succ n ih =>
    have run : s.freeRun (n + 1) = if (s.entry (s.txSlot s.tsm.post 0)).state = .free then (s.postedBy 1).freeRun n + 1
        else 0 := by
      rw [freeRun_eq, freeRun_eq, runLength_succ]
      simp only [decide_eq_true_eq]
      refine if_congr Iff.rfl (congrArg (· + 1) (runLength_congr fun j hj => ?_)) rfl
      rw [← entry_postedBy_one code (by omega)]
      exact congrArg (fun i => decide (((s.postedBy 1).entry i).state = .free)) (txSlot_succ s s.tsm.post j).symm
    rw [run]
    unfold postLoop
    simp only [← txSlot_zero]
    split
    · have posted : ({ setEntry s (s.txSlot s.tsm.post 0) { freeEntry with state := .posted, seq := some s.tsm.seqCtr } with
          tsm.post := s.tsm.post + 1, tsm.seqCtr := s.tsm.seqCtr + 1
          ple.placementQ := s.ple.placementQ ++ [s.txSlot s.tsm.post 0] } : State) = s.postedBy 1 := by
        simp only [State.postedBy, setRun_last, setRun_zero, State.postedEntry, word_add_zero]
        rfl
      rw [posted, ih (s := s.postedBy 1) code (Nat.le_of_succ_le h), postedBy_one_postedBy]
    · rw [postedBy_zero]

/-- Settles O11: the loop posts what `State.postedBy` says (`postLoop_eq`); a post of fewer raises the overrun. -/
theorem postTakesFreeEntries : Obligations.PostTakesFreeEntries := by
  intro s v size code n k t
  have ring : k ≤ s.svcTxSize := Nat.le_trans (runLength_le _ _) (Nat.min_le_right _ _)
  have within : k ≤ n := Nat.le_trans (runLength_le _ _) (Nat.min_le_left _ _)
  have taken : t = if k < n then (s.postedBy k).faulted .notice .postOverrun none
      (some (slotOf (s.postedBy k).tsm.post s.svcTxSize)) else s.postedBy k := by
    have run := postLoop_eq (min (advance v s.tsm.post) s.svcTxSize) code (Nat.min_le_right _ _)
    unfold t takePost
    simp only [run]
    exact if_congr Iff.rfl (takeFault_faulted _ _ _ _) rfl
  have entries : t.tsm = (s.postedBy k).tsm ∧ t.ple = (s.postedBy k).ple ∧ t.rmu = s.rmu ∧ t.umt = s.umt ∧
      t.swc = s.swc ∧ t.pmn = s.pmn ∧ t.fsp = s.fsp := by
    rw [taken]
    split <;> exact ⟨rfl, rfl, rfl, rfl, rfl, rfl, rfl⟩
  obtain ⟨tsm, ple, rmu, umt, swc, pmn, fsp⟩ := entries
  have entry (i : Nat) : t.entry i = (s.postedBy k).entry i := congrArg (fun m : Tsm => m.entries.getD i freeEntry) tsm
  refine ⟨by rw [tsm]; rfl, by rw [tsm]; rfl, by rw [tsm]; rfl, by rw [ple]; rfl, fun j hj => ?_, fun i other => ?_, ?_, ?_,
    rmu, umt, swc, pmn, fsp, by rw [ple]; rfl⟩
  · rw [entry]
    exact getD_setRun_same _ _ _ _ (fun i j hij hj => txSlot_ne code _ hij (Nat.lt_of_lt_of_le hj ring))
      (fun j _ => txSlot_lt size _ j) hj
  · rw [entry]
    exact getD_setRun_other _ _ _ _ other
  · intro all
    rw [taken, if_neg (by omega)]
    rfl
  · intro fewer
    rw [tsm, taken, if_pos fewer]
    rfl

/-! ### Reclaims (R25) -/

/-- The state with `k` entries from the reclaim record on FREE, and the record moved past them. -/
def State.reclaimedBy (s : State) (k : Nat) : State :=
  { s with
    tsm.entries := setRun (s.txSlot s.tsm.reclaim) (fun _ => freeEntry) k s.tsm.entries
    tsm.reclaim := s.tsm.reclaim + BitVec.ofNat 16 k }

theorem reclaimedBy_zero (s : State) : s.reclaimedBy 0 = s := by
  simp only [State.reclaimedBy, setRun_zero, word_add_zero]

/-- Freeing one entry, then `k` from the moved reclaim record on. -/
theorem reclaimedBy_one_reclaimedBy (s : State) (k : Nat) : (s.reclaimedBy 1).reclaimedBy k = s.reclaimedBy (k + 1) := by
  have slots (j : Nat) : (s.reclaimedBy 1).txSlot (s.reclaimedBy 1).tsm.reclaim j = s.txSlot s.tsm.reclaim (j + 1) :=
    txSlot_succ s s.tsm.reclaim j
  have entries : setRun ((s.reclaimedBy 1).txSlot (s.reclaimedBy 1).tsm.reclaim) (fun _ => freeEntry) k
      (s.reclaimedBy 1).tsm.entries = setRun (s.txSlot s.tsm.reclaim) (fun _ => freeEntry) (k + 1) s.tsm.entries := by
    rw [setRun_first, funext slots]
    rfl
  have reclaim : (s.reclaimedBy 1).tsm.reclaim + BitVec.ofNat 16 k = s.tsm.reclaim + BitVec.ofNat 16 (k + 1) :=
    (word_add_succ s.tsm.reclaim k).symm
  unfold State.reclaimedBy at entries reclaim ⊢
  simp only [entries, reclaim]

/-- Entries a reclaim frees from the reclaim record on, by their positions. -/
theorem doneRun_eq (s : State) (n : Nat) :
    s.doneRun n = runLength (fun j => (s.entry (s.txSlot s.tsm.reclaim j)).reclaimable) n := rfl

/-- A reclaim leaves the entries of the turn's other slots. -/
theorem entry_reclaimedBy_one {s : State} (code : s.sdc.settings.geometry.svcTx.size ≤ 3) {j : Nat}
    (hj : j + 1 < s.svcTxSize) :
    (s.reclaimedBy 1).entry (s.txSlot s.tsm.reclaim (j + 1)) = s.entry (s.txSlot s.tsm.reclaim (j + 1)) := by
  refine getD_setRun_other _ _ _ _ fun i hi => ?_
  obtain rfl : i = 0 := by omega
  exact txSlot_ne code _ j.succ_pos hj

/-- The reclaim loop frees the completed entries met, and counts them. -/
theorem reclaimLoop_eq (n : Nat) {s : State} (code : s.sdc.settings.geometry.svcTx.size ≤ 3) (h : n ≤ s.svcTxSize) :
    reclaimLoop n s = (s.doneRun n, s.reclaimedBy (s.doneRun n)) := by
  induction n generalizing s with
  | zero => exact Prod.ext rfl (reclaimedBy_zero s).symm
  | succ n ih =>
    have run : s.doneRun (n + 1) = if (s.entry (s.txSlot s.tsm.reclaim 0)).reclaimable then (s.reclaimedBy 1).doneRun n + 1
        else 0 := by
      rw [doneRun_eq, doneRun_eq, runLength_succ]
      refine if_congr Iff.rfl (congrArg (· + 1) (runLength_congr fun j hj => ?_)) rfl
      rw [← entry_reclaimedBy_one code (by omega)]
      exact congrArg (fun i => ((s.reclaimedBy 1).entry i).reclaimable) (txSlot_succ s s.tsm.reclaim j).symm
    rw [run]
    unfold reclaimLoop
    simp only [← txSlot_zero]
    split
    · have freed : ({ setEntry s (s.txSlot s.tsm.reclaim 0) freeEntry with
          tsm.reclaim := s.tsm.reclaim + 1 } : State) = s.reclaimedBy 1 := rfl
      rw [freed, ih (s := s.reclaimedBy 1) code (Nat.le_of_succ_le h), reclaimedBy_one_reclaimedBy]
    · rw [reclaimedBy_zero]

/-- Settles O12: the loop frees what `State.reclaimedBy` says (`reclaimLoop_eq`); a reclaim of fewer raises the overrun. -/
theorem reclaimFreesCompletedEntries : Obligations.ReclaimFreesCompletedEntries := by
  intro s v size code n k t
  have ring : k ≤ s.svcTxSize := Nat.le_trans (runLength_le _ _) (Nat.min_le_right _ _)
  have within : k ≤ n := Nat.le_trans (runLength_le _ _) (Nat.min_le_left _ _)
  have taken : t = if k < n then (s.reclaimedBy k).faulted .notice .reclaimOverrun none
      (some (slotOf (s.reclaimedBy k).tsm.reclaim s.svcTxSize)) else s.reclaimedBy k := by
    have run := reclaimLoop_eq (min (advance v s.tsm.reclaim) s.svcTxSize) code (Nat.min_le_right _ _)
    unfold t takeReclaim
    simp only [run]
    exact if_congr Iff.rfl (takeFault_faulted _ _ _ _) rfl
  have entries : t.tsm = (s.reclaimedBy k).tsm ∧ t.ple = s.ple ∧ t.rmu = s.rmu ∧ t.umt = s.umt ∧
      t.swc = s.swc ∧ t.pmn = s.pmn ∧ t.fsp = s.fsp := by
    rw [taken]
    split <;> exact ⟨rfl, rfl, rfl, rfl, rfl, rfl, rfl⟩
  obtain ⟨tsm, ple, rmu, umt, swc, pmn, fsp⟩ := entries
  have entry (i : Nat) : t.entry i = (s.reclaimedBy k).entry i := congrArg (fun m : Tsm => m.entries.getD i freeEntry) tsm
  refine ⟨by rw [tsm]; rfl, by rw [tsm]; rfl, by rw [tsm]; rfl, fun j hj => ?_, fun i other => ?_, ?_, ?_, ple, rmu, umt,
    swc, pmn, fsp⟩
  · rw [entry]
    exact getD_setRun_same _ _ _ _ (fun i j hij hj => txSlot_ne code _ hij (Nat.lt_of_lt_of_le hj ring))
      (fun j _ => txSlot_lt size _ j) hj
  · rw [entry]
    exact getD_setRun_other _ _ _ _ other
  · intro all
    rw [taken, if_neg (by omega)]
    rfl
  · intro fewer
    rw [tsm, taken, if_pos fewer]
    rfl

end Sys2Proof.Machine

/-! SUPPORT. What the placement engine's operations do, by the effects Safety writes out: an operation begun, its decision
steps, and its end (R30, R50 to R57, R66). -/

namespace Sys2Proof.Machine

/-! ### The tests of a decision -/

theorem cost_costOf (s : State) (p : Path) (i : Nat) :
    s.cost p ((s.entry i).cls.getD 0) ((s.entry i).len.getD 0) = s.costOf p i := by cases p <;> rfl

theorem action_actionOn (s : State) (p : Path) (cls : Cls) : s.action p cls = s.actionOn p cls := by
  cases p with
  | fibre => rfl
  | radio =>
    unfold State.action State.actionOn
    simp only [reduceCtorEq, false_or]
    split
    · rfl
    · cases s.umt.regime <;> rfl

theorem olderWaits_iff (s : State) (i : Nat) (cls : Cls) : s.olderWaits i cls = true ↔ s.hasOlder i cls := by
  simp only [State.olderWaits, Bool.or_eq_true, List.any_eq_true, Bool.and_eq_true, decide_eq_true_eq,
    Option.isNone_iff_eq_none]
  rfl

theorem ringHasRoom_iff (s : State) (p : Path) :
    s.ringHasRoom p = true ↔ ((s.ring p).producer - (s.ring p).consumer).toNat < s.txSize p := decide_eq_true_iff

/-! ### What an operation does to its entry -/

theorem beginOp_begun (s : State) (i : Nat) (kind : OpKind) (p : Path) : beginOp s i kind p = s.begunOn i kind p := rfl

theorem beginCopy_begun (s : State) (o : Operation) : beginCopy s o = s.copyBegun o := by
  unfold beginCopy State.copyBegun
  simp only [← cost_costOf]
  cases o.target <;> rfl

theorem requeue_requeued (s : State) (i : Nat) : s.requeuedTo (requeue s i) i := by
  refine ⟨_, ?_, rfl⟩
  have key : (setEntry s i { s.entry i with state := .posted, path := none, pslot := none }).slotOrder = s.slotOrder :=
    funext fun j => slotOrder_setEntry s i j _ rfl
  exact insertBy_insertedAt s.slotOrder i s.ple.placementQ

theorem deferEntry_deferred (s : State) (i : Nat) : s.deferredTo (deferEntry s i) i := by
  refine ⟨fun room => ?_, fun full => ?_⟩
  · refine ⟨_, insertBy_insertedAt (fun r : DeferralRec => s.orderOf r.seq) _ _, ?_⟩
    exact if_pos room
  · unfold deferEntry
    simp only
    rw [if_neg (show ¬ s.ple.deferralQ.length < Config.maxDeferred from Nat.not_lt.mpr full), takeFault_faulted, skipEntry_skipped]
    rfl

/-! ### The end of an operation -/

theorem endOp_opEnded {s : State} {o : Operation} (op : s.ple.op = some o) (b : Option Cls) :
    endOp s b = s.opEnded o b := by
  obtain ⟨slot, kind, phase, target⟩ := o
  unfold endOp State.opEnded
  simp only [op]
  cases kind with
  | placement => rfl
  | reDecision => rfl
  | release =>
    simp only
    split
    · cases b with
      | none => rfl
      | some c =>
        have block : (fun k : Scan => k.block c) =
            fun k => ⟨if c ∈ k.blocked then k.blocked else c :: k.blocked, k.pos⟩ := by
          funext k
          unfold Scan.block
          simp only [List.contains_iff_mem]
          split <;> rfl
        simp only [block]
    · rfl

/-- What is deferred keeps the operation. -/
theorem deferEntry_op (s : State) (i : Nat) : (deferEntry s i).ple.op = s.ple.op := by
  unfold deferEntry
  simp only
  split <;> rfl

theorem endOp_deferred {s : State} {o : Operation} (op : s.ple.op = some o) (b : Option Cls) :
    ∃ u, s.deferredTo u o.slot ∧ endOp (deferEntry s o.slot) b = u.opEnded o b :=
  ⟨_, deferEntry_deferred s o.slot, endOp_opEnded ((deferEntry_op s o.slot).trans op) b⟩

theorem abandonOp_requeued {s : State} {o : Operation} (op : s.ple.op = some o) :
    ∃ u, s.requeuedTo u o.slot ∧ abandonOp s = u.opEnded o none := by
  refine ⟨_, requeue_requeued s o.slot, ?_⟩
  have kept : (requeue s o.slot).ple.op = some o := op
  unfold abandonOp
  rw [op]
  exact endOp_opEnded kept none

/-! ### The credit test and the ring (R53, R54) -/

section
variable {s : State} {o : Operation} (op : s.ple.op = some o)

include op in
theorem creditAndRing_poor (poor : s.umt.pool < s.costOf o.target o.slot) :
    ∃ u, s.deferredTo u o.slot ∧ creditAndRing s o = u.opEnded o (some ((s.entry o.slot).cls.getD 0)) := by
  obtain ⟨u, deferred, ended⟩ := endOp_deferred op (some ((s.entry o.slot).cls.getD 0))
  refine ⟨u, deferred, ended ▸ if_pos ?_⟩
  rwa [cost_costOf]

theorem creditAndRing_rich (rich : s.costOf o.target o.slot ≤ s.umt.pool) : creditAndRing s o =
    if ((s.ring o.target).producer - (s.ring o.target).consumer).toNat < s.txSize o.target then s.copyBegun o
    else if s.ple.claim = .pending then abandonOp s else { s with ple.op := some { o with phase := .waiting } } := by
  unfold creditAndRing
  simp only
  rw [cost_costOf, if_neg (Nat.not_lt.mpr rich), beginCopy_begun]
  exact if_congr (ringHasRoom_iff s o.target) rfl rfl

end

/-! ### What an operation leaves alone -/

/-- The engine's operation on an entry: the other entries stay, what joins the short-write list is no withdrawal, and the
migration's step stays or ends. -/
structure OpTouches (s t : State) (i : Nat) : Prop where
  entries : ∀ j, j ≠ i → t.entry j = s.entry j
  list : ∃ more, t.fsp.list = s.fsp.list ++ more ∧ ∀ a ∈ more, a.kind ≠ .withdrawal
  step : t.swc.step = s.swc.step ∨ t.swc.step = none

theorem OpTouches.quiet {s t : State} {i : Nat} (entries : ∀ j, j ≠ i → t.entry j = s.entry j)
    (list : t.fsp.list = s.fsp.list) (step : t.swc.step = s.swc.step) : OpTouches s t i :=
  ⟨entries, ⟨[], by rw [list, List.append_nil], nofun⟩, .inl step⟩

theorem OpTouches.trans {s t u : State} {i : Nat} (h : OpTouches s t i) (k : OpTouches t u i) : OpTouches s u i := by
  obtain ⟨first, list, others⟩ := h.list
  obtain ⟨second, list', others'⟩ := k.list
  refine ⟨fun j hj => (k.entries j hj).trans (h.entries j hj), ⟨first ++ second, ?_, fun a ha => ?_⟩, ?_⟩
  · rw [list', list, List.append_assoc]
  · exact (List.mem_append.mp ha).elim (others a) (others' a)
  · rcases k.step with same | ended
    · exact same ▸ h.step
    · exact .inr ended

theorem skipEntry_touches (s : State) (i : Nat) (st : Status) : OpTouches s (skipEntry s i st) i :=
  ⟨fun j hj => entry_setEntry_other s i j _ hj, ⟨_, rfl, fun a ha => by rw [List.mem_singleton.mp ha]; nofun⟩, .inl rfl⟩

theorem endOp_touches (s : State) (b : Option Cls) (i : Nat) : OpTouches s (endOp s b) i := by
  have ended (t : State) (entries : t.tsm = s.tsm) (list : t.fsp = s.fsp) (step : t.swc = s.swc ∨ t.swc.step = none) :
      OpTouches s t i := by
    refine ⟨fun j _ => congrArg (fun m : Tsm => m.entries.getD j freeEntry) entries, ⟨[], ?_, nofun⟩, ?_⟩
    · rw [list, List.append_nil]
    · exact step.imp_left fun same => congrArg (·.step) same
  unfold endOp
  split
  · exact ended _ rfl rfl (.inl rfl)
  · split
    · exact ended _ rfl rfl (.inl rfl)
    · exact ended _ rfl rfl (.inr rfl)
    · split
      · split
        · exact ended _ rfl rfl (.inl rfl)
        · exact ended _ rfl rfl (.inl rfl)
      · exact ended _ rfl rfl (.inl rfl)

theorem deferEntry_touches (s : State) (i : Nat) : OpTouches s (deferEntry s i) i := by
  unfold deferEntry
  simp only
  split
  · exact .quiet (fun j hj => entry_setEntry_other s i j _ hj) rfl rfl
  · exact (skipEntry_touches s i 10).trans (.quiet (fun _ _ => rfl) rfl rfl)

theorem creditAndRing_touches {s : State} {o : Operation} (op : s.ple.op = some o) :
    OpTouches s (creditAndRing s o) o.slot := by
  unfold creditAndRing
  simp only
  split
  · exact (deferEntry_touches s o.slot).trans (endOp_touches _ _ _)
  · split
    · exact .quiet (fun j hj => entry_setEntry_other s _ j _ hj) rfl rfl
    · split
      · unfold abandonOp
        rw [op]
        have requeued : OpTouches s (requeue s o.slot) o.slot :=
          .quiet (fun j hj => entry_setEntry_other s _ j _ hj) rfl rfl
        exact requeued.trans (endOp_touches _ _ _)
      · exact .quiet (fun _ _ => rfl) rfl rfl

end Sys2Proof.Machine

/-! SUPPORT. The terminals' tracked words: fetches, completions and consumer passes (R32 to R40), and the indexes a terminal
writes (R37, R79, R80, R100). -/

namespace Sys2Proof.Machine

/-! ### The regime leaves the tables -/

theorem prompted_frame (s : State) :
    s.prompted = { s with ple.rexPending := s.prompted.ple.rexPending, ple.rescan := s.prompted.ple.rescan } := by
  unfold State.prompted
  split <;> rfl

theorem regimed_frame (s : State) : s.regimed =
    { s with
      ple.rexPending := s.regimed.ple.rexPending, ple.rescan := s.regimed.ple.rescan, umt.regime := s.regimed.umt.regime,
      pcf.pending := s.regimed.pcf.pending, sdc.seen := s.regimed.sdc.seen } := by
  unfold State.regimed
  split
  · rfl
  · rw [prompted_frame]
    rfl

theorem regimed_tsm (s : State) : s.regimed.tsm = s.tsm := (congrArg State.tsm (regimed_frame s)).trans rfl

theorem regimed_rings (s : State) : s.regimed.ple.rings = s.ple.rings :=
  (congrArg (fun t : State => t.ple.rings) (regimed_frame s)).trans rfl

theorem regimed_fsp (s : State) : s.regimed.fsp = s.fsp := (congrArg State.fsp (regimed_frame s)).trans rfl

theorem regimed_swc (s : State) : s.regimed.swc = s.swc := (congrArg State.swc (regimed_frame s)).trans rfl

theorem regimed_rmu (s : State) : s.regimed.rmu = s.rmu := (congrArg State.rmu (regimed_frame s)).trans rfl

theorem regimed_meters (s : State) : s.regimed.umt.tx = s.umt.tx ∧ s.regimed.umt.rx = s.umt.rx :=
  ⟨(congrArg (fun t : State => t.umt.tx) (regimed_frame s)).trans rfl,
    (congrArg (fun t : State => t.umt.rx) (regimed_frame s)).trans rfl⟩

theorem regimed_engine (s : State) : s.regimed.ple.op = s.ple.op ∧ s.regimed.ple.claim = s.ple.claim ∧
    s.regimed.sdc.settings = s.sdc.settings :=
  ⟨(congrArg (fun t : State => t.ple.op) (regimed_frame s)).trans rfl,
    (congrArg (fun t : State => t.ple.claim) (regimed_frame s)).trans rfl,
    (congrArg (fun t : State => t.sdc.settings) (regimed_frame s)).trans rfl⟩

/-! ### Slot records of a path -/

theorem slotAt_set_same (r : TxRing) {i : Nat} (x : SlotRec) (inside : i < r.slots.length) :
    ({ r with slots := r.slots.set i x } : TxRing).slotAt i = x := by
  simp [TxRing.slotAt, List.getD, inside]

theorem slotAt_set_other (r : TxRing) {i j : Nat} (x : SlotRec) (other : j ≠ i) :
    ({ r with slots := r.slots.set i x } : TxRing).slotAt j = r.slotAt j := by
  simp [TxRing.slotAt, List.getD, other.symm]

theorem slotAt_set_clear (r : TxRing) (i : Nat) :
    ({ r with slots := r.slots.set i clearSlot } : TxRing).slotAt i = clearSlot := by
  by_cases inside : i < r.slots.length
  · exact slotAt_set_same r clearSlot inside
  · simp [TxRing.slotAt, List.getD, inside]

/-! ### A cancelled withdrawal (R40, R130) -/

theorem cancelWithdrawal_cancelled (s : State) (i : Nat) : cancelWithdrawal s i = s.withdrawalCancelled i :=
  cancelIf_cancelled s { freeEntry with state := .withdrawing } i

/-- The withdrawal of a slot is gone: its write is off the list, the others stay, and the step is not on it. -/
structure WithdrawalGone (s t : State) (i : Nat) : Prop where
  gone : ∀ a ∈ t.fsp.list, ¬ (a.kind = .withdrawal ∧ a.slot = some i)
  others : ∀ a ∈ s.fsp.list, ¬ (a.kind = .withdrawal ∧ a.slot = some i) → a ∈ t.fsp.list
  step : t.swc.step ≠ some i

theorem withdrawalCancelled_gone (s : State) (i : Nat) : WithdrawalGone s (s.withdrawalCancelled i) i where
  gone a ha := of_decide_eq_true (List.mem_filter.mp ha).2
  others a ha other := List.mem_filter.mpr ⟨ha, decide_eq_true other⟩
  step := by
    show (if s.swc.step = some i then none else s.swc.step) ≠ some i
    split
    · nofun
    · assumption

/-- A withdrawal stays gone while only other accesses join the list and the step at most ends. -/
theorem WithdrawalGone.joined {s t u : State} {i : Nat} (h : WithdrawalGone s t i) {more : List Access}
    (list : u.fsp.list = t.fsp.list ++ more) (kinds : ∀ a ∈ more, a.kind ≠ .withdrawal)
    (step : u.swc.step = t.swc.step ∨ u.swc.step = none) : WithdrawalGone s u i where
  gone a ha := by
    rw [list] at ha
    exact (List.mem_append.mp ha).elim (h.gone a) fun joined withdrawal => kinds a joined withdrawal.1
  others a ha other := by
    rw [list]
    exact List.mem_append_left _ (h.others a ha other)
  step := by
    rcases step with same | ended
    · exact same ▸ h.step
    · rw [ended]
      nofun

/-! ### Completions (R33, R34) -/

/-- A completion mirrored, before it is metered. -/
def State.mirrored (s : State) (p : Path) (ps i : Nat) (w : Word) : State :=
  let u := if (s.entry i).state = .withdrawing then s.withdrawalCancelled i else s
  { u with
    tsm.entries := s.tsm.entries.set i
      { s.entry i with
        state := .done, path := none, pslot := none, final := some (w.extractLsb' 7 4), finalPending := some true }
    ple.rings := s.ple.rings.set p
      { s.ring p with slots := (s.ring p).slots.set ps { (s.ring p).slotAt ps with mapped := none } }
    fsp.list := u.fsp.list ++ [⟨.mirror, s.svcTxAddr i 0, [w], some i, none, 0, false, false⟩] }

theorem mirrorCompletion_mirrored (s : State) (p : Path) (ps i : Nat) (w : Word) : mirrorCompletion s p ps i w =
    if p = .radio ∧ w.extractLsb' 7 4 = 1 then
      ({ s.mirrored p ps i w with umt.tx := metered s.umt.tx ((s.entry i).len.getD 0).toNat } : State).regimed
    else s.mirrored p ps i w := by
  have mirrored : requestService (cancelIf (setSlotRec (setEntry s i
      { s.entry i with
        state := .done, path := none, pslot := none, final := some (w0Status w), finalPending := some true }) p ps
      { (s.ring p).slotAt ps with mapped := none }) (s.entry i) i) .mirror i w = s.mirrored p ps i w := by
    rw [cancelIf_cancelled]
    unfold State.mirrored
    split <;> rfl
  have tx : (s.mirrored p ps i w).umt.tx = s.umt.tx := by
    unfold State.mirrored
    simp only
    split <;> rfl
  unfold mirrorCompletion
  simp only
  rw [mirrored]
  refine if_congr Iff.rfl ?_ rfl
  unfold meterTx
  rw [computeRegime_regimed, addBytes_metered, tx]

/-- What a mirrored completion sets, its metering aside. -/
theorem takeCompletion_mirrored {s : State} {p : Path} {ps i : Nat} (w : Word)
    (mapped : ((s.ring p).slotAt ps).mapped = some i) (live : (s.entry i).live = true) :
    let t := takeCompletion s p ps w
    let m := s.mirrored p ps i w
    t.tsm = m.tsm ∧ t.ple.rings = m.ple.rings ∧ t.fsp = m.fsp ∧ t.swc = m.swc ∧ t.umt.rx = s.umt.rx ∧
      t.umt.tx = if p = .radio ∧ w.extractLsb' 7 4 = 1 then metered s.umt.tx ((s.entry i).len.getD 0).toNat
        else s.umt.tx := by
  intro t m
  have taken : t = mirrorCompletion s p ps i w := by
    unfold t takeCompletion
    simp only [mapped]
    exact if_pos live
  have meters : m.umt = s.umt := by
    unfold m State.mirrored
    simp only
    split <;> rfl
  rw [taken, mirrorCompletion_mirrored]
  split
  · rw [regimed_tsm, regimed_rings, regimed_fsp, regimed_swc, (regimed_meters _).1, (regimed_meters _).2]
    exact ⟨rfl, rfl, rfl, rfl, congrArg (·.rx) meters, rfl⟩
  · exact ⟨rfl, rfl, rfl, rfl, congrArg (·.rx) meters, congrArg (·.tx) meters⟩

theorem ring_rings {s t : State} (h : t.ple.rings = s.ple.rings) (p : Path) : t.ring p = s.ring p :=
  congrArg (·.get p) h

/-- Settles O14: the mirrored completion is `State.mirrored`, and a metered one leaves its tables. -/
theorem completionIsMirrored : Obligations.CompletionIsMirrored := by
  intro s p ps i w slot ring entry live t u
  have mapped : ((s.ring p).slotAt ps).mapped = some i := congrArg (·.mapped) slot
  obtain ⟨tsm, rings, fsp, swc, rx, tx⟩ := takeCompletion_mirrored w mapped ((live_iff _).2 live)
  have entries (j : Nat) : t.entry j = (setEntry s i { s.entry i with
      state := .done, path := none, pslot := none, final := some (w.extractLsb' 7 4), finalPending := some true }).entry j :=
    (congrArg (fun m : Tsm => m.entries.getD j freeEntry) tsm).trans rfl
  have path : t.ring p = { s.ring p with slots := (s.ring p).slots.set ps ⟨true, none, false⟩ } := by
    rw [ring_rings rings]
    refine (PerPath.get_set_same _ p _).trans ?_
    rw [slot]
  refine ⟨?_, fun j other => ?_, ?_, fun q other => ?_, ?_, ?_, ?_, ?_, ?_, rx, tx⟩
  · rw [entries]
    exact entry_setEntry_same s i _ entry
  · rw [entries]
    exact entry_setEntry_other s i j _ other
  · rw [path]
    exact slotAt_set_same _ _ ring
  · rw [path]
    exact slotAt_set_other _ _ other
  · rw [path]
  · rw [path]
  · rw [ring_rings rings]
    exact PerPath.get_set_other _ p _
  · exact congrArg (·.list) fsp
  · exact swc

/-! ### Passed path slots (R37, R38) -/

/-- What a pass of path slots keeps. -/
structure PassKept (s t : State) (p : Path) : Prop where
  op : t.ple.op = s.ple.op
  claim : t.ple.claim = s.ple.claim
  settings : t.sdc.settings = s.sdc.settings
  rmu : t.rmu = s.rmu
  other : t.ring (otherPath p) = s.ring (otherPath p)
  producer : (t.ring p).producer = (s.ring p).producer
  entries : ∀ i, (s.entry i).live = false → t.entry i = s.entry i

theorem PassKept.refl (s : State) (p : Path) : PassKept s s p := ⟨rfl, rfl, rfl, rfl, rfl, rfl, fun _ _ => rfl⟩

theorem PassKept.trans {s t u : State} {p : Path} (h : PassKept s t p) (k : PassKept t u p) : PassKept s u p where
  op := k.op.trans h.op
  claim := k.claim.trans h.claim
  settings := k.settings.trans h.settings
  rmu := k.rmu.trans h.rmu
  other := k.other.trans h.other
  producer := k.producer.trans h.producer
  entries i dead := (k.entries i (by rw [h.entries i dead]; exact dead)).trans (h.entries i dead)

/-- A state with a slot record cleared and, of the rest a pass keeps, all but some live entries. -/
theorem PassKept.of_cleared {s t : State} {p : Path} {ps : Nat}
    (engine : t.ple.op = s.ple.op ∧ t.ple.claim = s.ple.claim ∧ t.sdc.settings = s.sdc.settings) (rmu : t.rmu = s.rmu)
    (rings : t.ple.rings = (setSlotRec s p ps clearSlot).ple.rings)
    (entries : ∀ i, (s.entry i).live = false → t.entry i = s.entry i) : PassKept s t p := by
  obtain ⟨op, claim, settings⟩ := engine
  have same : t.ring p = { s.ring p with slots := (s.ring p).slots.set ps clearSlot } := by
    rw [ring_rings rings]
    exact PerPath.get_set_same _ p _
  have other : t.ring (otherPath p) = s.ring (otherPath p) := by
    rw [ring_rings rings]
    exact PerPath.get_set_other _ p _
  exact ⟨op, claim, settings, rmu, other, by rw [same], entries⟩

/-- The withdrawal of an entry is cancelled where it is being withdrawn. -/
def State.unwithdrawn (s : State) (i : Nat) : State :=
  if (s.entry i).state = .withdrawing then s.withdrawalCancelled i else s

/-- A passed slot that maps a live entry: its record is clear, the entry is SKIPPED and its withdrawal cancelled. -/
structure PassedLive (s t : State) (p : Path) (ps i : Nat) : Prop where
  mapped : ((s.ring p).slotAt ps).mapped = some i
  live : (s.entry i).live = true
  rings : t.ple.rings = (setSlotRec s p ps clearSlot).ple.rings
  tsm : t.tsm = (s.skippedWith i 12).tsm
  swc : t.swc = (s.unwithdrawn i).swc
  fsp : t.fsp = ((s.unwithdrawn i).skippedWith i 12).fsp
  rmu : t.rmu = s.rmu
  engine : t.ple.op = s.ple.op ∧ t.ple.claim = s.ple.claim ∧ t.sdc.settings = s.sdc.settings

/-- A completed slot that is metered is completed. -/
theorem PassedLive.metered {s t : State} {p : Path} {ps i : Nat} (h : PassedLive s t p ps i) (tx : BitVec 64) :
    PassedLive s ({ t with umt.tx := tx } : State).regimed p ps i := by
  obtain ⟨op, claim, settings⟩ := regimed_engine { t with umt.tx := tx }
  exact ⟨h.mapped, h.live, (regimed_rings _).trans h.rings, (regimed_tsm _).trans h.tsm, (regimed_swc _).trans h.swc,
    (regimed_fsp _).trans h.fsp, (regimed_rmu _).trans h.rmu, op.trans h.engine.1, claim.trans h.engine.2.1,
    settings.trans h.engine.2.2⟩

/-- A passed slot is cleared; one that maps a live entry completes it too. -/
theorem passed_cases (s : State) (p : Path) (ps : Nat) :
    (s.passed p ps = setSlotRec s p ps clearSlot ∧
      ∀ i, ((s.ring p).slotAt ps).mapped = some i → (s.entry i).live = false) ∨
    ∃ i, PassedLive s (s.passed p ps) p ps i := by
  unfold State.passed
  simp only
  cases mapped : ((s.ring p).slotAt ps).mapped with
  | none => exact .inl ⟨rfl, nofun⟩
  | some i =>
    simp only
    split
    · rename_i live
      refine .inr ⟨i, ?_⟩
      have skipped : PassedLive s ((if (s.entry i).state = .withdrawing then
          (setSlotRec s p ps clearSlot).withdrawalCancelled i else setSlotRec s p ps clearSlot).skippedWith i 12) p ps i := by
        by_cases withdrawing : (s.entry i).state = .withdrawing
        · have cancelled : s.unwithdrawn i = s.withdrawalCancelled i := if_pos withdrawing
          rw [if_pos withdrawing]
          exact ⟨mapped, (live_iff _).2 live, rfl, rfl, by rw [cancelled]; rfl, by rw [cancelled]; rfl, rfl, rfl, rfl, rfl⟩
        · have kept : s.unwithdrawn i = s := if_neg withdrawing
          rw [if_neg withdrawing]
          exact ⟨mapped, (live_iff _).2 live, rfl, rfl, by rw [kept]; rfl, by rw [kept]; rfl, rfl, rfl, rfl, rfl⟩
      cases p with
      | fibre => exact skipped
      | radio => exact skipped.metered _
    · rename_i dead
      refine .inl ⟨rfl, ?_⟩
      rintro j ⟨⟩
      exact Bool.eq_false_iff.mpr (mt (live_iff _).1 dead)

theorem passed_rings (s : State) (p : Path) (ps : Nat) :
    (s.passed p ps).ple.rings = (setSlotRec s p ps clearSlot).ple.rings := by
  rcases passed_cases s p ps with ⟨e, -⟩ | ⟨i, live⟩
  · rw [e]
  · exact live.rings

theorem passed_kept (s : State) (p : Path) (ps : Nat) : PassKept s (s.passed p ps) p := by
  rcases passed_cases s p ps with ⟨e, -⟩ | ⟨i, completed⟩
  · rw [e]
    exact .of_cleared ⟨rfl, rfl, rfl⟩ rfl rfl fun _ _ => rfl
  · refine .of_cleared completed.engine completed.rmu completed.rings fun j dead => ?_
    have other : j ≠ i := by
      rintro rfl
      exact Bool.noConfusion (completed.live.symm.trans dead)
    exact (congrArg (fun m : Tsm => m.entries.getD j freeEntry) completed.tsm).trans (entry_setEntry_other s i j _ other)

/-- A pass leaves the slots before it clear, and clears its own. -/
theorem passed_clear {s : State} {p : Path} {ps j : Nat} (h : j = ps ∨ (s.ring p).slotAt j = clearSlot) :
    ((s.passed p ps).ring p).slotAt j = clearSlot := by
  rw [ring_rings (passed_rings s p ps)]
  have cleared : (setSlotRec s p ps clearSlot).ring p = { s.ring p with slots := (s.ring p).slots.set ps clearSlot } :=
    PerPath.get_set_same _ p _
  rw [cleared]
  by_cases own : j = ps
  · subst own
    exact slotAt_set_clear _ _
  · rw [slotAt_set_other _ _ own]
    exact h.resolve_left own

/-- The path slots passed from an index on, in turn. -/
def State.passedFrom (s : State) (p : Path) (i : Word) (n : Nat) : State :=
  (List.range n).foldl (fun u k => u.passed p (slotOf (i + BitVec.ofNat 16 k) (s.txSize p))) s

theorem passedFrom_last (s : State) (p : Path) (i : Word) (n : Nat) :
    s.passedFrom p i (n + 1) = (s.passedFrom p i n).passed p (slotOf (i + BitVec.ofNat 16 n) (s.txSize p)) := by
  simp only [State.passedFrom, List.range_succ, List.foldl_append, List.foldl_cons, List.foldl_nil]

theorem passedFrom_kept (s : State) (p : Path) (i : Word) (n : Nat) : PassKept s (s.passedFrom p i n) p := by
  induction n with
  | zero => exact .refl s p
  | succ n ih =>
    rw [passedFrom_last]
    exact ih.trans (passed_kept _ p _)

theorem passedFrom_clear (s : State) (p : Path) (i : Word) {n k : Nat} (hk : k < n) :
    ((s.passedFrom p i n).ring p).slotAt (slotOf (i + BitVec.ofNat 16 k) (s.txSize p)) = clearSlot := by
  induction n with
  | zero => exact absurd hk k.not_lt_zero
  | succ n ih =>
    rw [passedFrom_last]
    refine passed_clear ?_
    by_cases last : k = n
    · exact .inl (by rw [last])
    · exact .inr (ih (by omega))

/-- Passing one slot, then `n` from the next index on. -/
theorem passedFrom_first (s : State) (p : Path) (i : Word) (n : Nat) :
    s.passedFrom p i (n + 1) = (s.passed p (slotOf i (s.txSize p))).passedFrom p (i + 1) n := by
  have size : (s.passed p (slotOf i (s.txSize p))).txSize p = s.txSize p :=
    congrArg (fun c : Settings => pathSlots (c.geometry.tx.get p).size) (passed_kept s p _).settings
  unfold State.passedFrom
  rw [size, List.range_succ_eq_map, List.foldl_cons, List.foldl_map]
  simp only [word_add_zero, Nat.succ_eq_add_one, word_add_succ]

theorem passLoop_passedFrom (p : Path) (n : Nat) (i : Word) (s : State) : passLoop p n i s = s.passedFrom p i n := by
  induction n generalizing i s with
  | zero => rfl
  | succ n ih => rw [passLoop, ih, passSlot_passed, passedFrom_first]

theorem passedTo_eq (s : State) (p : Path) (v : Word) : s.passedTo p v =
    setRing (passLoop p (advance v (s.ring p).consumer) (s.ring p).consumer s) p
      { (passLoop p (advance v (s.ring p).consumer) (s.ring p).consumer s).ring p with consumer := v } := by
  rw [passLoop_passedFrom]
  rfl

/-- The path's ring once a consumer value is passed. -/
theorem ring_passedTo (s : State) (p : Path) (v : Word) : (s.passedTo p v).ring p =
    { (s.passedFrom p (s.ring p).consumer (advance v (s.ring p).consumer)).ring p with consumer := v } :=
  PerPath.get_set_same _ p _

theorem passedTo_kept (s : State) (p : Path) (v : Word) : PassKept s (s.passedTo p v) p := by
  have kept := passedFrom_kept s p (s.ring p).consumer (advance v (s.ring p).consumer)
  refine ⟨kept.op, kept.claim, kept.settings, kept.rmu, ?_, ?_, kept.entries⟩
  · exact (PerPath.get_set_other _ p _).trans kept.other
  · rw [ring_passedTo]
    exact kept.producer

theorem passedTo_clear (s : State) (p : Path) (v : Word) {k : Nat} (hk : k < advance v (s.ring p).consumer) :
    ((s.passedTo p v).ring p).slotAt (slotOf ((s.ring p).consumer + BitVec.ofNat 16 k) (s.txSize p)) = clearSlot := by
  rw [ring_passedTo]
  exact passedFrom_clear s p _ hk

/-- A consumer value passed by none changes nothing. -/
theorem passedTo_self (s : State) (p : Path) : s.passedTo p (s.ring p).consumer = s := by
  have none : advance (s.ring p).consumer (s.ring p).consumer = 0 := by simp [advance]
  rw [passedTo_eq, none]
  exact congrArg (fun r => { s with ple.rings := r }) (PerPath.set_get s.ple.rings p)

end Sys2Proof.Machine

/-! SUPPORT. The race of a withdrawal and the terminal (R40, R130), and the indexes a terminal writes (R37, R54, R79, R80,
R100). -/

namespace Sys2Proof.Machine

/-! ### A consumer word (R37) -/

theorem takeTxConsumer_beyond {s : State} {p : Path} {v : Word}
    (beyond : ((s.ring p).producer - (s.ring p).consumer).toNat < (v - (s.ring p).consumer).toNat) :
    takeTxConsumer s p v = terminalIndex s p :=
  if_neg fun within => absurd (of_decide_eq_true within) (Nat.not_le.mpr beyond)

theorem takeTxConsumer_within {s : State} {p : Path} {v : Word}
    (within : (v - (s.ring p).consumer).toNat ≤ ((s.ring p).producer - (s.ring p).consumer).toNat) :
    takeTxConsumer s p v = if v = (s.ring p).consumer then s.passedTo p v
      else endRingWait (restartStall (s.passedTo p v) p) p := by
  rw [passedTo_eq]
  exact if_pos (decide_eq_true within)

theorem endRingWait_idle {s : State} {p : Path} (idle : ∀ o, s.ple.op = some o → o.phase ≠ .waiting ∨ o.target ≠ p) :
    endRingWait s p = s := by
  unfold endRingWait
  split
  · rename_i o op
    exact if_neg fun waits => (idle o op).elim (· waits.1) (· waits.2)
  · rfl

theorem endRingWait_waiting {s : State} {p : Path} {o : Operation} (op : s.ple.op = some o) (phase : o.phase = .waiting)
    (target : o.target = p) : endRingWait s p = creditAndRing s o := by
  unfold endRingWait
  rw [op]
  exact if_pos ⟨phase, target⟩

/-! ### Fetches (R32, R40) -/

theorem takeFetch_placed {s : State} {p : Path} {ps i : Nat} (slot : (s.ring p).slotAt ps = ⟨true, some i, false⟩)
    (placed : (s.entry i).state = .placed) : takeFetch s p ps = setEntry s i { s.entry i with state := .fetched } := by
  unfold takeFetch
  simp only [slot, placed]

theorem takeFetch_withdrawing {s : State} {p : Path} {ps i : Nat} (slot : (s.ring p).slotAt ps = ⟨true, some i, false⟩)
    (withdrawing : (s.entry i).state = .withdrawing) :
    takeFetch s p ps = (setEntry s i { s.entry i with state := .fetched }).withdrawalCancelled i := by
  rw [← cancelWithdrawal_cancelled]
  unfold takeFetch
  simp only [slot, withdrawing]

theorem takeFetch_unpublished {s : State} {p : Path} {ps : Nat} (h : ((s.ring p).slotAt ps).published = false) :
    takeFetch s p ps = s := by
  unfold takeFetch
  simp only [h]

theorem takeFetch_unmapped {s : State} {p : Path} {ps : Nat} (h : ((s.ring p).slotAt ps).mapped = none) :
    takeFetch s p ps = s := by
  unfold takeFetch
  simp only [h]
  split
  · rename_i none
    cases none
  · rfl

theorem takeFetch_dead {s : State} {p : Path} {ps i : Nat} (mapped : ((s.ring p).slotAt ps).mapped = some i)
    (unplaced : (s.entry i).state ≠ .placed) (kept : (s.entry i).state ≠ .withdrawing) : takeFetch s p ps = s := by
  unfold takeFetch
  simp only [mapped]
  split
  · rename_i j _ same
    cases same
    split
    case h_1 placed => exact absurd placed unplaced
    case h_2 withdrawing => exact absurd withdrawing kept
    all_goals rfl
  · rfl

/-! ### The withdrawal's race (R40) -/

/-- A completion of a WITHDRAWING entry cancels its withdrawal. -/
theorem takeCompletion_cancels {s : State} {p : Path} {ps i : Nat} (w : Word)
    (mapped : ((s.ring p).slotAt ps).mapped = some i) (withdrawing : (s.entry i).state = .withdrawing) :
    WithdrawalGone s (takeCompletion s p ps w) i := by
  obtain ⟨-, -, fsp, swc, -⟩ := takeCompletion_mirrored w mapped ((live_iff _).2 (.inr (.inr withdrawing)))
  have list : (s.mirrored p ps i w).fsp.list = (s.withdrawalCancelled i).fsp.list ++
      [⟨.mirror, s.svcTxAddr i 0, [w], some i, none, 0, false, false⟩] := by
    unfold State.mirrored
    simp only [withdrawing, if_true]
  have step : (s.mirrored p ps i w).swc = (s.withdrawalCancelled i).swc := by
    unfold State.mirrored
    simp only [withdrawing, if_true]
  refine (withdrawalCancelled_gone s i).joined ((congrArg (·.list) fsp).trans list) (fun a ha => ?_) (.inl ?_)
  · rw [List.mem_singleton.mp ha]
    nofun
  · rw [swc, step]

/-- The consumer's pass of the slot of a WITHDRAWING entry completes it with status 12 and cancels its withdrawal. -/
theorem passed_cancels {s t : State} {p : Path} {ps i : Nat} (h : PassedLive s t p ps i)
    (withdrawing : (s.entry i).state = .withdrawing) : WithdrawalGone s t i := by
  have cancelled : s.unwithdrawn i = s.withdrawalCancelled i := if_pos withdrawing
  have list : t.fsp.list = (s.withdrawalCancelled i).fsp.list ++ [⟨.final, s.svcTxAddr i 0,
      [BitVec.ofNat 16 (((s.entry i).cls.getD 0).toNat * 2048 + (12#4).toNat * 128)], some i, none, 0, false, false⟩] := by
    rw [h.fsp, cancelled]
    rfl
  refine (withdrawalCancelled_gone s i).joined list (fun a ha => ?_) (.inl ?_)
  · rw [List.mem_singleton.mp ha]
    nofun
  · rw [h.swc, cancelled]

theorem takeTxConsumer_next {s : State} {p : Path} (room : (s.ring p).producer ≠ (s.ring p).consumer) :
    takeTxConsumer s p ((s.ring p).consumer + 1) =
      endRingWait (restartStall (s.passedTo p ((s.ring p).consumer + 1)) p) p := by
  have one : ((s.ring p).consumer + 1 - (s.ring p).consumer).toNat = 1 := by
    rw [BitVec.add_comm, BitVec.add_sub_cancel]
    rfl
  have ahead : ((s.ring p).producer - (s.ring p).consumer).toNat ≠ 0 := fun none =>
    room (by bv_omega)
  rw [takeTxConsumer_within (by omega), if_neg]
  intro same
  rw [same, BitVec.sub_self] at one
  exact absurd one (by decide)

theorem passedTo_next (s : State) (p : Path) : s.passedTo p ((s.ring p).consumer + 1) =
    let t := s.passed p (slotOf (s.ring p).consumer (s.txSize p))
    setRing t p { t.ring p with consumer := (s.ring p).consumer + 1 } := by
  have one : advance ((s.ring p).consumer + 1) (s.ring p).consumer = 1 := by
    rw [advance, BitVec.add_comm, BitVec.add_sub_cancel]
    rfl
  have single : passLoop p 1 (s.ring p).consumer s = s.passed p (slotOf (s.ring p).consumer (s.txSize p)) :=
    passSlot_passed s p _
  rw [passedTo_eq, one, single]

/-- A consumer that passes the slot of a WITHDRAWING entry, met by whatever ring-full wait it ends. -/
theorem takeTxConsumer_cancels {s : State} {p : Path} {i : Nat}
    (slot : (s.ring p).slotAt (slotOf (s.ring p).consumer (s.txSize p)) = ⟨true, some i, false⟩)
    (entry : i < s.tsm.entries.length) (withdrawing : (s.entry i).state = .withdrawing)
    (other : ∀ o, s.ple.op = some o → o.slot ≠ i) (room : (s.ring p).producer ≠ (s.ring p).consumer) :
    let t := takeTxConsumer s p ((s.ring p).consumer + 1)
    t.entry i = { s.entry i with
      state := .skipped, path := none, pslot := none, final := some 12, finalPending := some true } ∧
      WithdrawalGone s t i := by
  intro t
  have mapped : ((s.ring p).slotAt (slotOf (s.ring p).consumer (s.txSize p))).mapped = some i := congrArg (·.mapped) slot
  have completed : PassedLive s (s.passed p (slotOf (s.ring p).consumer (s.txSize p))) p
      (slotOf (s.ring p).consumer (s.txSize p)) i := by
    rcases passed_cases s p (slotOf (s.ring p).consumer (s.txSize p)) with ⟨-, dead⟩ | ⟨j, completed⟩
    · exact nomatch (dead i mapped).symm.trans ((live_iff _).2 (.inr (.inr withdrawing)))
    · have same : j = i := Option.some.inj (completed.mapped.symm.trans mapped)
      exact same ▸ completed
  have op := (passedTo_kept s p ((s.ring p).consumer + 1)).op
  have moved : t = endRingWait (restartStall (s.passedTo p ((s.ring p).consumer + 1)) p) p := takeTxConsumer_next room
  rw [passedTo_next] at op moved
  have skipped : (s.passed p (slotOf (s.ring p).consumer (s.txSize p))).entry i = { s.entry i with
      state := .skipped, path := none, pslot := none, final := some 12, finalPending := some true } :=
    (congrArg (fun m : Tsm => m.entries.getD i freeEntry) completed.tsm).trans (entry_setEntry_same s i _ entry)
  have gone := passed_cancels completed withdrawing
  generalize s.passed p (slotOf (s.ring p).consumer (s.txSize p)) = u at skipped gone op moved
  have waited (r : State) (rop : r.ple.op = s.ple.op) (rentry : r.entry i = u.entry i) (rlist : r.fsp = u.fsp)
      (rstep : r.swc = u.swc) : (endRingWait r p).entry i = u.entry i ∧ WithdrawalGone s (endRingWait r p) i := by
    have stays : WithdrawalGone s r i :=
      gone.joined (more := []) (by rw [rlist, List.append_nil]) nofun (.inl (by rw [rstep]))
    unfold endRingWait
    split
    · rename_i o some
      split
      · have touched := creditAndRing_touches some
        obtain ⟨more, list, kinds⟩ := touched.list
        exact ⟨(touched.entries i (other o (rop.symm.trans some)).symm).trans rentry, stays.joined list kinds touched.step⟩
      · exact ⟨rentry, stays⟩
    · exact ⟨rentry, stays⟩
  rw [moved]
  obtain ⟨same, cancelled⟩ := waited (restartStall (setRing u p { u.ring p with consumer := (s.ring p).consumer + 1 }) p) op
    rfl rfl rfl
  exact ⟨same.trans skipped, cancelled⟩

/-- Settles O13: a fetch, a completion and a pass each take the withdrawal off the list (`takeFetch_withdrawing`,
`takeCompletion_cancels`, `takeTxConsumer_cancels`); a slot with no mapping answers none. -/
theorem withdrawalRaceHasOneWinner : Obligations.WithdrawalRaceHasOneWinner := by
  refine ⟨?_, ?_, ?_, ?_⟩
  · intro s p ps i slot entry withdrawing t
    have taken : t = (setEntry s i { s.entry i with state := .fetched }).withdrawalCancelled i :=
      takeFetch_withdrawing slot withdrawing
    have gone := withdrawalCancelled_gone (setEntry s i { s.entry i with state := .fetched }) i
    rw [← taken] at gone
    refine ⟨?_, fun j other => ?_, gone.gone, gone.others, gone.step, by rw [taken]; rfl, by rw [taken]; rfl⟩
    · rw [taken]
      exact entry_setEntry_same s i _ entry
    · rw [taken]
      exact entry_setEntry_other s i j _ other
  · intro s p i w ps slot entry withdrawing other cancelled completed gone
    have mapped : ((s.ring p).slotAt ps).mapped = some i := congrArg (·.mapped) slot
    obtain ⟨tsm, -⟩ := takeCompletion_mirrored w mapped ((live_iff _).2 (.inr (.inr withdrawing)))
    have done : completed.entry i = { s.entry i with
        state := .done, path := none, pslot := none, final := some (w.extractLsb' 7 4), finalPending := some true } :=
      (congrArg (fun m : Tsm => m.entries.getD i freeEntry) tsm).trans (entry_setEntry_same s i _ entry)
    have off := takeCompletion_cancels w mapped withdrawing
    refine ⟨by rw [done], by rw [done], ⟨off.gone, off.others, off.step⟩, fun room => ?_⟩
    obtain ⟨skipped, passed⟩ := takeTxConsumer_cancels slot entry withdrawing other room
    have same : gone.entry i = _ := skipped
    exact ⟨by rw [same], by rw [same], by rw [same], passed.gone, passed.others, passed.step⟩
  · intro s p ps
    exact ⟨fun i slot placed => takeFetch_placed slot placed, fun i mapped => takeFetch_dead mapped,
      fun h => h.elim takeFetch_unpublished takeFetch_unmapped⟩
  · intro s p ps w published
    refine ⟨fun slot => ?_, fun slot => ?_⟩
    · refine ⟨takeFetch_unmapped (congrArg (·.mapped) slot), ?_⟩
      unfold takeCompletion
      simp only [slot, if_true]
    · refine ⟨takeFetch_unmapped (congrArg (·.mapped) slot), ?_⟩
      unfold takeCompletion
      simp only [slot, Bool.false_eq_true, if_false]
      exact takeFault_class rfl s (some p) none

end Sys2Proof.Machine

/-! SUPPORT. The indexes a terminal writes: consumer words pass slots and may end a ring-full wait, producer words join the
arrival list, and an index out of span is terminal misbehaviour (R37, R54, R79, R80, R100). -/

namespace Sys2Proof.Machine

/-! ### Terminal misbehaviour leaves the slot tables (R100) -/

/-- The path transmit rings and the receive merge unit. -/
def State.tables (s : State) : PerPath TxRing × Rmu := (s.ple.rings, s.rmu)

theorem SwitchFrame.tables {s t : State} (h : SwitchFrame s t) : t.tables = s.tables :=
  (congrArg State.tables h.frame).trans rfl

theorem evalStandby_tables (s : State) : (evalStandby s).tables = s.tables :=
  (congrArg State.tables (evalStandby_frame s).1).trans rfl

theorem startMigration_tables (s : State) (target : Option Path) (kind : MigrationKind) :
    (startMigration s target kind).tables = s.tables := by
  unfold startMigration
  rw [(claimEngine_frame _).1.tables]
  have served (u : State) : (setService u target).tables = u.tables :=
    (congrArg State.tables (setService_frame u target).1).trans rfl
  split
  · exact (served _).trans rfl
  · exact (served _).trans rfl

theorem pathLeftUp_tables (s : State) (p : Path) : (pathLeftUp s p).tables = s.tables := by
  unfold pathLeftUp
  split
  · split
    · split
      · exact (startMigration_tables _ _ _).trans rfl
      · exact (startMigration_tables _ _ _).trans rfl
    · split <;> rfl
  · rfl

theorem downEvent_tables (s : State) (p : Path) (cause : DownCause) : (downEvent s p cause).tables = s.tables := by
  have flapped (u : State) : (flapAppend u).tables = u.tables := by
    unfold flapAppend
    simp only
    split <;> split <;> rfl
  have reported {u : State} (h : u.tables = s.tables) : (if s.isUp p then pathLeftUp u p else u).tables = s.tables := by
    split
    · exact (pathLeftUp_tables u p).trans h
    · exact h
  unfold downEvent
  cases p with
  | fibre => exact reported ((evalStandby_tables _).trans ((flapped _).trans rfl))
  | radio => exact reported (by simp only; split <;> rfl)

theorem applyCause_tables (s : State) (p : Path) (cause : DownCause) : (applyCause s p cause).tables = s.tables := by
  unfold applyCause
  split
  · exact downEvent_tables s p cause
  · exact downEvent_tables s p cause
  · unfold causeWhileDown
    simp only
    split <;> rfl
  · rfl
  · rfl

theorem terminalIndex_faulted (s : State) (p : Path) :
    terminalIndex s p = applyCause (s.faulted .path .terminalIndex (some p) none) p .terminalIndex :=
  congrArg (applyCause · p .terminalIndex) (takeFault_class rfl s (some p) none)

theorem terminalIndex_tables (s : State) (p : Path) : (terminalIndex s p).tables = s.tables :=
  (applyCause_tables _ p _).trans rfl

/-! ### A consumer word (R37, R54) -/

/-- A consumer value within the span, with no operation on the engine, passes its slots and moves the record. -/
theorem takeTxConsumer_idle {s : State} {p : Path} {v : Word}
    (within : (v - (s.ring p).consumer).toNat ≤ ((s.ring p).producer - (s.ring p).consumer).toNat)
    (idle : s.ple.op = none) :
    (takeTxConsumer s p v).ple = (s.passedTo p v).ple ∧ (takeTxConsumer s p v).rmu = (s.passedTo p v).rmu ∧
      (takeTxConsumer s p v).tsm = (s.passedTo p v).tsm := by
  rw [takeTxConsumer_within within]
  split
  · exact ⟨rfl, rfl, rfl⟩
  · have waitless : endRingWait (restartStall (s.passedTo p v) p) p = restartStall (s.passedTo p v) p := by
      refine endRingWait_idle fun o op => ?_
      have none : (s.passedTo p v).ple.op = none := (passedTo_kept s p v).op.trans idle
      exact nomatch none.symm.trans op
    rw [waitless]
    exact ⟨rfl, rfl, rfl⟩

/-- The transmit side of O15. -/
theorem txConsumer_judged (s : State) (p : Path) (v : Word) :
    let c := (s.ring p).consumer
    let q := (s.ring p).producer
    let t := takeTxConsumer s p v
    ((v - c).toNat ≤ (q - c).toNat → s.ple.op = none →
      (t.ring p).consumer = v ∧ (t.ring p).producer = q ∧
      (∀ k, k < (v - c).toNat → (t.ring p).slotAt (slotOf (c + BitVec.ofNat 16 k) (s.txSize p)) = clearSlot) ∧
      t.ring (otherPath p) = s.ring (otherPath p) ∧ t.rmu = s.rmu ∧
      (∀ i, (s.entry i).state ≠ .placed → (s.entry i).state ≠ .fetched → (s.entry i).state ≠ .withdrawing →
        t.entry i = s.entry i)) := by
  intro c q t within idle
  obtain ⟨ple, rmu, tsm⟩ := takeTxConsumer_idle within idle
  have kept := passedTo_kept s p v
  have ring (r : Path) : t.ring r = (s.passedTo p v).ring r := congrArg (fun e : Ple => e.rings.get r) ple
  refine ⟨?_, (congrArg TxRing.producer (ring p)).trans kept.producer, fun k hk => ?_, (ring _).trans kept.other,
    rmu.trans kept.rmu, fun i placed fetched withdrawing => ?_⟩
  · rw [ring, ring_passedTo]
  · rw [ring]
    exact passedTo_clear s p v hk
  · have dead : (s.entry i).live = false := by
      refine Bool.eq_false_iff.mpr fun live => ?_
      rcases (live_iff _).1 live with e | e | e
      · exact placed e
      · exact fetched e
      · exact withdrawing e
    exact (congrArg (fun m : Tsm => m.entries.getD i freeEntry) tsm).trans (kept.entries i dead)

/-- A consumer value that advances ends a ring-full wait on its path with the credit test (R54). -/
theorem txConsumer_ends_wait {s : State} {p : Path} {v : Word} {o : Operation}
    (within : (v - (s.ring p).consumer).toNat ≤ ((s.ring p).producer - (s.ring p).consumer).toNat)
    (moved : v ≠ (s.ring p).consumer) (op : s.ple.op = some o) (phase : o.phase = .waiting) (target : o.target = p) :
    let u := restartStall (s.passedTo p v) p
    let t := takeTxConsumer s p v
    (u.umt.pool < u.costOf p o.slot →
      ∃ w, u.deferredTo w o.slot ∧ t = w.opEnded o (some ((u.entry o.slot).cls.getD 0))) ∧
    (u.costOf p o.slot ≤ u.umt.pool → ((s.ring p).producer - v).toNat < s.txSize p → t = u.copyBegun o) ∧
    (u.costOf p o.slot ≤ u.umt.pool → s.txSize p ≤ ((s.ring p).producer - v).toNat → s.ple.claim ≠ .pending → t = u) ∧
    (u.costOf p o.slot ≤ u.umt.pool → s.txSize p ≤ ((s.ring p).producer - v).toNat → s.ple.claim = .pending →
      ∃ w, u.requeuedTo w o.slot ∧ t = w.opEnded o none) := by
  intro u t
  subst target
  have kept := passedTo_kept s o.target v
  have uop : u.ple.op = some o := kept.op.trans op
  have taken : t = creditAndRing u o := by
    unfold t
    rw [takeTxConsumer_within within, if_neg moved]
    exact endRingWait_waiting uop phase rfl
  have size : u.txSize o.target = s.txSize o.target :=
    congrArg (fun c : Settings => pathSlots (c.geometry.tx.get o.target).size) kept.settings
  have claim : u.ple.claim = s.ple.claim := kept.claim
  have ring : ((u.ring o.target).producer - (u.ring o.target).consumer).toNat = ((s.ring o.target).producer - v).toNat := by
    have consumer : (u.ring o.target).consumer = v := congrArg TxRing.consumer (ring_passedTo s o.target v)
    rw [consumer]
    exact congrArg (fun w : Word => (w - v).toNat) kept.producer
  rw [taken]
  refine ⟨fun poor => creditAndRing_poor uop poor, fun rich room => ?_, fun rich full unclaimed => ?_,
    fun rich full pending => ?_⟩
  · rw [creditAndRing_rich rich, ring, size, if_pos room]
  · rw [creditAndRing_rich rich, ring, size, if_neg (Nat.not_lt.mpr full), claim, if_neg unclaimed]
    have same : some { o with phase := .waiting } = u.ple.op := by
      rw [uop, ← phase]
    rw [same]
  · rw [creditAndRing_rich rich, ring, size, if_neg (Nat.not_lt.mpr full), claim, if_pos pending]
    exact abandonOp_requeued uop

/-! ### A producer word (R79, R80) -/

theorem takeRxProducer_beyond {s : State} {p : Path} {v : Word}
    (beyond : ((s.rxRecs p).consumer + BitVec.ofNat 16 (s.rxSize p) - (s.rxRecs p).producer).toNat <
      (v - (s.rxRecs p).producer).toNat) : takeRxProducer s p v = terminalIndex s p :=
  if_neg fun within => absurd (of_decide_eq_true within) (Nat.not_le.mpr beyond)

/-- The producer record moved and the batch joined, before the assignment run. -/
def State.arrived (s : State) (p : Path) (v : Word) : State :=
  let r := s.rxRecs p
  let h := s.pathRec p
  { s with
    rmu.recs := s.rmu.recs.set p { r with producer := v }
    rmu.arrivals := joined s.rmu.arrivals p (v - r.producer).toNat
    pmn.recs := s.pmn.recs.set p { h with mark := true, silence := if h.health = .up then 0 else h.silence } }

theorem takeRxProducer_same (s : State) (p : Path) : takeRxProducer s p (s.rxRecs p).producer = s := by
  have within : inSpan (s.rxRecs p).producer (s.rxRecs p).producer
      (stepIndex (s.rxRecs p).consumer (s.rxSize p)) = true := by simp [inSpan, advance]
  have none : advance (s.rxRecs p).producer (s.rxRecs p).producer = 0 := by simp [advance]
  refine (if_pos within).trans ((if_pos none).trans ?_)
  exact congrArg (fun r => { s with rmu.recs := r }) (PerPath.set_get s.rmu.recs p)

theorem takeRxProducer_arrived {s : State} {p : Path} {v : Word} (moved : v ≠ (s.rxRecs p).producer)
    (within : (v - (s.rxRecs p).producer).toNat ≤
      ((s.rxRecs p).consumer + BitVec.ofNat 16 (s.rxSize p) - (s.rxRecs p).producer).toNat) :
    takeRxProducer s p v = assignRun (s.arrived p v) := by
  have some : advance v (s.rxRecs p).producer ≠ 0 := fun none => moved (by unfold advance at none; bv_omega)
  refine (if_pos (decide_eq_true within)).trans ((if_neg some).trans ?_)
  rw [joinArrivals_joined]
  rfl

/-- An assignment run moves no producer and no consumer record. -/
theorem Assigns.ends {s t : State} {k : Nat} (run : Assigns s t k) (p : Path) :
    (t.rxRecs p).producer = (s.rxRecs p).producer ∧ (t.rxRecs p).consumer = (s.rxRecs p).consumer := by
  induction run with
  | done => exact ⟨rfl, rfl⟩
  | @more s _ b rest _ _ _ _ ih =>
    obtain ⟨producer, consumer⟩ := ih
    have own := assignOne_rxRecs s b rest p
    rw [producer, consumer, own]
    exact ⟨rfl, rfl⟩

/-- A ring within its size stays so while its producer stays within its room. -/
theorem producer_within {producer consumer v : Word} {n : Nat} (_small : n ≤ 256) (held : (producer - consumer).toNat ≤ n)
    (room : (v - producer).toNat ≤ (consumer + BitVec.ofNat 16 n - producer).toNat) : (v - consumer).toNat ≤ n := by
  bv_omega

/-- Settles O15: a consumer value is `State.passedTo` and what the ring-full wait decides (`txConsumer_ends_wait`), a
producer value `State.arrived` and an assignment run, and one out of span is misbehaviour (`terminalIndex_tables`). -/
theorem terminalIndexesAreJudged : Obligations.TerminalIndexesAreJudged := by
  refine ⟨?_, ?_⟩
  · intro s p v c q t
    refine ⟨fun beyond => ?_, txConsumer_judged s p v, ?_, fun within moved => ?_⟩
    · have taken : t = terminalIndex s p := takeTxConsumer_beyond beyond
      rw [taken]
      exact ⟨congrArg Prod.fst (terminalIndex_tables s p), terminalIndex_faulted s p⟩
    · rintro rfl
      have within : ((s.ring p).consumer - (s.ring p).consumer).toNat ≤
          ((s.ring p).producer - (s.ring p).consumer).toNat := by simp
      exact (takeTxConsumer_within within).trans ((if_pos rfl).trans (passedTo_self s p))
    · refine ⟨fun idle => (takeTxConsumer_within within).trans ((if_neg moved).trans ?_), fun o op phase target =>
        txConsumer_ends_wait within moved op phase target⟩
      exact endRingWait_idle fun o op => idle o ((passedTo_kept s p v).op.symm.trans op)
  · intro s p v r room t
    refine ⟨fun beyond => ?_, fun within => ?_⟩
    · have taken : t = terminalIndex s p := takeRxProducer_beyond beyond
      rw [taken]
      exact ⟨congrArg Prod.snd (terminalIndex_tables s p), terminalIndex_faulted s p⟩
    · have bounded (held : (r.producer - r.consumer).toNat ≤ s.rxSize p) (small : s.rxSize p ≤ 256) :
          (v - r.consumer).toNat ≤ s.rxSize p := producer_within small held within
      by_cases moved : v = r.producer
      · have same : t = s := by
          unfold t
          rw [moved]
          exact takeRxProducer_same s p
        rw [same]
        exact ⟨moved.symm, rfl, rfl, rfl, rfl, rfl, fun other => absurd moved other, fun _ => rfl,
          fun other => absurd moved other, bounded⟩
      · have taken : t = assignRun (s.arrived p v) := takeRxProducer_arrived moved within
        have run := assignLoop_assigns (s.arrived p v).svcRxSize (s.arrived p v)
        obtain ⟨rmu, list, frame⟩ := assignRun_frame (s.arrived p v)
        have ends (q : Path) : (t.rxRecs q).producer = ((s.arrived p v).rxRecs q).producer ∧
            (t.rxRecs q).consumer = ((s.arrived p v).rxRecs q).consumer := by
          rw [taken, assignRun_rxRecs]
          exact run.ends q
        have own : (s.arrived p v).rxRecs p = { r with producer := v } := PerPath.get_set_same _ p _
        have other : (s.arrived p v).rxRecs (otherPath p) = s.rxRecs (otherPath p) := PerPath.get_set_other _ p _
        have mark : (t.pathRec p).mark = true := by
          rw [taken, frame]
          exact congrArg PathRecord.mark (PerPath.get_set_same s.pmn.recs p _)
        refine ⟨by rw [(ends p).1, own], by rw [(ends p).2, own], ?_, by rw [(ends _).1, other], by rw [(ends _).2, other],
          ?_, fun _ => mark, fun same => absurd same moved, fun _ => taken, bounded⟩
        · rw [taken, assignRun_rmu]
          exact run.release
        · rw [taken, frame]
          rfl

end Sys2Proof.Machine

/-! SUPPORT. The radio power sequencer's answers to a command and to a service path change (R106, R107, R111), the start of a
migration (R127), and the commands HALT and RECONFIGURE (R189, R190). -/

namespace Sys2Proof.Machine

/-- Settles O3: each value of the reset state is computed. -/
theorem powerOnResetValues : Obligations.PowerOnResetValues := by
  refine ⟨rfl, rfl, rfl, rfl, rfl, fun p => ?_, rfl, rfl, rfl, rfl, rfl, rfl, rfl, rfl, rfl, rfl, rfl, rfl, rfl, rfl, rfl,
    rfl, rfl, rfl, rfl, rfl, rfl, rfl, rfl, rfl, rfl, rfl, rfl, rfl, rfl, rfl⟩
  cases p <;> exact ⟨rfl, rfl, rfl, rfl, rfl, rfl, rfl, rfl⟩

/-! ### The standby condition that cannot hold (R106) -/

/-- A standby condition that does not hold powers a radio in STANDBY up, and does nothing else. -/
theorem evalStandby_unmet {s : State} (unmet : s.standbyCond = false) :
    evalStandby s = if s.pmn.power.phase = .standby then powerUp s else s := by
  have no : ¬ s.standbyCond = true := Bool.eq_false_iff.mp unmet
  unfold evalStandby
  split
  · rename_i phase
    rw [if_neg no, phase, if_neg nofun]
  · rename_i phase
    rw [if_neg no, phase, if_neg nofun]
  · rename_i phase
    rw [if_neg no, phase, if_pos rfl]
  · rename_i phase
    rw [phase, if_neg nofun]

theorem standbyCond_iff (s : State) : s.standbyCond = true ↔ s.sdc.settings.radio.standby = .onDemand ∧
    (s.pathRec .fibre).health = .up ∧ s.swc.service = some .fibre ∧ s.pmn.power.keep = none := by
  simp only [State.standbyCond, Bool.and_eq_true, decide_eq_true_eq, isUp_iff, Option.isNone_iff_eq_none, and_assoc]

theorem standbyCond_policy {s : State} (policy : s.sdc.settings.radio.standby ≠ .onDemand) : s.standbyCond = false :=
  Bool.eq_false_iff.mpr fun met => policy ((standbyCond_iff s).1 met).1

theorem standbyCond_service {s : State} (service : s.swc.service ≠ some .fibre) : s.standbyCond = false :=
  Bool.eq_false_iff.mpr fun met => service ((standbyCond_iff s).1 met).2.2.1

theorem standbyCond_keep {s : State} (keep : s.pmn.power.keep ≠ none) : s.standbyCond = false :=
  Bool.eq_false_iff.mpr fun met => keep ((standbyCond_iff s).1 met).2.2.2

/-! ### STANDBY_POLICY and RADIO_RESTART (R106, R111) -/

/-- The policy stored, with the keep timer as R107 has it. -/
def State.policySet (s : State) (p : Standby) : State :=
  { s with
    sdc.settings.radio.standby := p
    pmn.power.keep :=
      if p = .alwaysOn then none else if s.swc.service = some .fibre then some 0 else s.pmn.power.keep }

/-- A new policy leaves the radio awake, and powers it up from STANDBY. -/
theorem takeStandby_new {s : State} {v : Word} (new : standbyOf v.toNat ≠ s.sdc.settings.radio.standby) :
    takeStandby v s = settleWork
      (if s.pmn.power.phase = .standby then powerUp (s.policySet (standbyOf v.toNat))
      else s.policySet (standbyOf v.toNat)) := by
  unfold takeStandby
  simp only
  rw [if_neg new]
  cases policy : standbyOf v.toNat with
  | onDemand =>
    refine congrArg settleWork ?_
    unfold State.policySet
    simp only [reduceCtorEq, if_false]
    split
    · exact evalStandby_unmet (standbyCond_keep nofun)
    · rename_i other
      exact evalStandby_unmet (standbyCond_service other)
  | alwaysOn => exact congrArg settleWork (evalStandby_unmet (standbyCond_policy nofun))

theorem takeRadioRestart_powered (s : State) : takeRadioRestart s =
    { s with
      pmn.recs.radio.health := .down
      pmn.power :=
        { phase := .powered
          attach := some 0
          off := s.pmn.power.off
          keep :=
            if s.sdc.settings.radio.standby = .onDemand ∧ s.swc.service = some .fibre then some 0
            else s.pmn.power.keep
          retry := 0 } } := by
  by_cases serves : s.sdc.settings.radio.standby = .onDemand ∧ s.swc.service = some .fibre
  · have kept : startKeep (powerUp { s with pmn.power.retry := 0 }) =
        { powerUp { s with pmn.power.retry := 0 } with pmn.power.keep := some 0 } :=
      (evalStandby_unmet (standbyCond_keep (by nofun))).trans (if_neg (by nofun))
    rw [if_pos serves]
    exact (if_pos serves).trans kept
  · rw [if_neg serves]
    exact if_neg serves

/-- Settles O23: both commands end with the standby condition unmet (`evalStandby_unmet`). -/
theorem radioCommandsPowerUp : Obligations.RadioCommandsPowerUp := by
  refine ⟨fun s x v h => ?_, fun s x v h => ?_⟩
  · have value : standbyOf v.toNat = if v = 1 then .onDemand else .alwaysOn := by
      have one : v.toNat = 1 ↔ v = 1 := ⟨fun e => BitVec.eq_of_toNat_eq e, fun e => by rw [e]; rfl⟩
      unfold standbyOf
      split <;> simp_all
    have judged : judgeWrite { s with nsi.near := none } .supervisor (settingAddr 4 0 x) v = none := by
      refine judgeWrite_setting _ _ v ?_ ?_ ?_ ?_ <;>
        simp only [settingGroup_settingAddr, settingItem_settingAddr, settingIndex_settingAddr]
      · exact .inr (.inr (.inr (.inr (.inl ⟨rfl, by decide⟩))))
      · decide
      · rintro (e | e | ⟨e, -⟩) <;> exact absurd e (by decide)
      · exact fun e => absurd e (by decide)
    have taken : exec (.standbyPolicySetting .supervisor x v) s = .next (takeStandby v { s with nsi.near := none }) :=
      congrArg _ (writeCycle_taken s _ _ v noRefusal (takeStandby v) h judged rfl)
    rw [taken, ← value]
    refine ⟨fun same => ?_, fun new phase => ?_, fun new phase => ?_⟩
    · exact congrArg _ (if_pos same)
    · rw [takeStandby_new (s := { s with nsi.near := none }) new, if_pos phase]
      rfl
    · rw [takeStandby_new (s := { s with nsi.near := none }) new, if_neg phase]
      rfl
  · have refusal : radioRestartRefusal s = match s.pmn.power.phase with
        | .powered => some .state | .cycling => some .state | .standby => none | .failed => none := by
      unfold radioRestartRefusal
      cases s.pmn.power.phase <;> rfl
    refine ⟨fun phase => ?_, fun phase => ?_⟩
    · refine congrArg _ (commandCycle_refused h (by decide) rfl _ ?_)
      rcases phase with e | e <;> exact refusal.trans (by rw [e])
    · refine congrArg _ ((commandCycle_taken h (by decide) rfl _ ?_).trans (takeRadioRestart_powered _))
      rcases phase with e | e <;> exact refusal.trans (by rw [e])

end Sys2Proof.Machine

/-! SUPPORT. The commands HALT and RECONFIGURE (R189, R190), and the start of a migration: the service path, what the path
monitor does about it, and the claim (R107, R115, R127). -/

namespace Sys2Proof.Machine

/-! ### A change of the service path (R107, R115) -/

/-- The keep timer as a change of the service path leaves it. -/
def State.keepServing (s : State) (target : Option Path) : Timer :=
  if target ≠ some .fibre then none
  else if s.sdc.settings.radio.standby = .onDemand then some 0
  else s.pmn.power.keep

/-- The path monitor after a change of the service path: the keep timer, and a radio in STANDBY powered up. -/
def State.monitorServing (s : State) (target : Option Path) : Pmn :=
  if s.pmn.power.phase = .standby then
    { s.pmn with
      power := { s.pmn.power with phase := .powered, attach := some 0, keep := s.keepServing target }
      recs := ⟨s.pathRec .fibre, { s.pathRec .radio with health := .down }⟩ }
  else { s.pmn with power := { s.pmn.power with keep := s.keepServing target } }

theorem evalStandby_serving {s : State} {target : Option Path} (unmet : ({ s with
    swc.service := target, pmn.power.keep := s.keepServing target } : State).standbyCond = false) :
    (evalStandby { s with swc.service := target, pmn.power.keep := s.keepServing target }).pmn =
      s.monitorServing target := by
  rw [evalStandby_unmet unmet]
  unfold State.monitorServing
  by_cases phase : s.pmn.power.phase = .standby
  · rw [if_pos phase, if_pos phase]
    rfl
  · rw [if_neg phase, if_neg phase]

theorem reportService_pmn (s : State) (target : Option Path) :
    (reportService { s with swc.service := target }).pmn = s.monitorServing target := by
  by_cases fibre : target = some .fibre
  · subst fibre
    by_cases policy : s.sdc.settings.radio.standby = .onDemand
    · have keep : s.keepServing (some .fibre) = some 0 := (if_neg (not_not_intro rfl)).trans (if_pos policy)
      rw [← evalStandby_serving (standbyCond_keep (by rw [keep]; nofun)), keep]
      exact congrArg State.pmn ((if_pos rfl).trans (if_pos policy))
    · have keep : s.keepServing (some .fibre) = s.pmn.power.keep := (if_neg (not_not_intro rfl)).trans (if_neg policy)
      rw [← evalStandby_serving (standbyCond_policy policy), keep]
      exact congrArg State.pmn ((if_pos rfl).trans (if_neg policy))
  · have keep : s.keepServing target = none := if_pos fibre
    rw [← evalStandby_serving (standbyCond_service fibre), keep]
    exact congrArg State.pmn (if_neg fibre)

theorem setService_pmn (s : State) (target : Option Path) :
    (setService s target).pmn = if s.swc.service = target then s.pmn else s.monitorServing target := by
  have served : (if s.swc.service = target then s else reportService { s with swc.service := target }).pmn =
      if s.swc.service = target then s.pmn else s.monitorServing target := by
    split
    · rfl
    · exact reportService_pmn s target
  unfold setService
  simp only
  split
  · exact served
  · exact served

/-! ### HALT (R137, R189) -/

/-- Settles O26: the entry into HALTED is `State.halting` with the service path NONE and the timers in line. -/
theorem haltFreezesPart : Obligations.HaltFreezesPart := by
  intro s x v h
  refine ⟨fun idle => ?_, fun active => ?_⟩
  · exact congrArg _ (commandCycle_refused h (by decide) rfl _ (if_neg idle))
  · have taken : exec (.halt .supervisor x v) s = .next (enterHalted { s with nsi.near := none }) :=
      congrArg _ (commandCycle_taken h (by decide) rfl enterHalted (if_pos active))
    obtain ⟨frame, monitor, swc⟩ := setService_frame ({ s with nsi.near := none } : State).halting none
    have pmn := setService_pmn ({ s with nsi.near := none } : State).halting none
    rw [taken, enterHalted_halting]
    generalize setService ({ s with nsi.near := none } : State).halting none = u at frame monitor swc pmn ⊢
    have part : u.pcf.part = .halted := by rw [frame]; rfl
    have stalls (p : Path) : u.stallInLine p = none := by
      refine if_neg ?_
      rintro ⟨active, -⟩
      rw [part] at active
      cases active
    refine ⟨u.timersInLine, rfl, ?_, ?_, ?_, ?_, ?_, ?_, ?_, ?_, ?_, ?_, swc, fun p => ?_, fun fibre => ?_, ?_⟩
    · rw [frame]
      rfl
    · rw [frame]
      rfl
    · rw [frame]
      rfl
    · rw [frame]
      rfl
    · rw [frame]
      rfl
    · rw [frame]
      rfl
    · have quiet : ¬ (((u.pcf.part = .starting ∨ u.pcf.part = .active) ∧ u.fsp.list ≠ []) ∨
          (u.pcf.part = .active ∧ u.fsp.copyReq ≠ none)) := by
        rw [part]
        rintro (⟨e | e, -⟩ | ⟨e, -⟩) <;> cases e
      have streak : u.timersInLine.fsp = { u.fsp with streak := 0 } :=
        congrArg (fun n => { u.fsp with streak := n }) (if_neg quiet)
      rw [streak, frame]
      rfl
    · rw [frame]
      rfl
    · rw [frame]
      rfl
    · rw [frame]
      rfl
    · cases p
      · exact stalls .fibre
      · exact stalls .radio
    · have serving : ¬ ({ s with nsi.near := none } : State).halting.swc.service = none := by
        intro none
        exact nomatch fibre.symm.trans none
      have keep : u.pmn.power.keep = none := by
        rw [pmn, if_neg serving]
        unfold State.monitorServing
        split <;> rfl
      exact keep
    · have health : (u.pathRec .fibre).health = (s.pathRec .fibre).health :=
        (congrArg (fun m => m.recs.fibre.health) monitor).trans rfl
      exact health

/-! ### RECONFIGURE (R190) -/

/-- Settles O27: the taken command clears what it names, by definition. -/
theorem reconfigureClearsTables : Obligations.ReconfigureClearsTables := by
  intro s x v h
  have refusal : reconfigureRefusal s = match s.pcf.part with
      | .config => none | .halted => none | .starting => some .state | .active => some .state := by
    unfold reconfigureRefusal
    cases s.pcf.part <;> rfl
  refine ⟨fun part => ?_, fun part => ?_⟩
  · refine congrArg _ (commandCycle_refused h (by decide) rfl _ ?_)
    rcases part with e | e <;> exact refusal.trans (by rw [e])
  · refine congrArg _ ((commandCycle_taken h (by decide) rfl takeReconfigure ?_).trans ?_)
    · rcases part with e | e <;> exact refusal.trans (by rw [e])
    · unfold takeReconfigure voidPort
      cases port : s.fsp.port <;> rfl

/-! ### The claim (R57, R67, R70) -/

/-- The claim made PENDING, and the scan and its marks dropped, or the marks alone while an operation is present. -/
def State.claimed (s : State) : State :=
  { s with
    ple.claim := .pending
    ple.rexPending := if s.ple.scan = none then s.ple.rexPending else false
    ple.rescan := if s.ple.scan = none then s.ple.rescan else false
    ple.scan := if s.ple.op = none then none else s.ple.scan }

theorem claimEngine_claimed (s : State) : claimEngine s =
    match s.ple.op with
    | none => s.claimed
    | some o => if o.phase = .waiting then abandonOp s.claimed else s.claimed := by
  cases scan : s.ple.scan <;> cases op : s.ple.op <;>
    simp only [claimEngine, dropScan, State.claimed, scan, op, Option.isNone_none, Option.isNone_some, Bool.false_eq_true,
      if_true, if_false, ite_self, reduceCtorEq]

/-- What an abandoned operation leaves once a claim is PENDING. -/
theorem abandonOp_claimed {s : State} {o : Operation} (op : s.ple.op = some o) (claim : s.ple.claim = .pending) :
    let t := abandonOp s
    t.ple.op = none ∧ t.ple.claim = .pending ∧
      t.tsm.entries = s.tsm.entries.set o.slot { s.entry o.slot with state := .posted, path := none, pslot := none } ∧
      insertedAt s.slotOrder o.slot s.ple.placementQ t.ple.placementQ ∧
      t = { s with tsm := t.tsm, ple := { t.ple with
        copyBuf := s.ple.copyBuf, deferralQ := s.ple.deferralQ, rings := s.ple.rings }, swc.step := t.swc.step } ∧
      (o.kind = .release → t.ple.scan = none ∧ t.ple.rexPending = false ∧ t.ple.rescan = false) ∧
      (o.kind ≠ .release → t.ple.rexPending = s.ple.rexPending ∧ t.ple.rescan = s.ple.rescan) := by
  intro t
  obtain ⟨u, ⟨q, placed, requeued⟩, ended⟩ := abandonOp_requeued op
  have result : t = u.opEnded o none := ended
  rw [result, requeued]
  obtain ⟨slot, kind, phase, target⟩ := o
  cases kind with
  | placement => exact ⟨rfl, claim, rfl, placed, rfl, nofun, fun _ => ⟨rfl, rfl⟩⟩
  | reDecision => exact ⟨rfl, claim, rfl, placed, rfl, nofun, fun _ => ⟨rfl, rfl⟩⟩
  | release =>
    unfold State.opEnded
    simp only [claim, reduceCtorEq, if_false]
    exact ⟨trivial, trivial, trivial, placed, trivial, fun _ => ⟨trivial, trivial, trivial⟩, fun h => absurd rfl h⟩

/-- What a claim does to the engine, by the operation present, and what it leaves. -/
structure Claims (s t : State) : Prop where
  claim : t.ple.claim = .pending
  rest : t = { s with tsm := t.tsm, ple := { t.ple with
    copyBuf := s.ple.copyBuf, deferralQ := s.ple.deferralQ, rings := s.ple.rings }, swc.step := t.swc.step }
  marks : s.ple.scan ≠ none → t.ple.rexPending = false ∧ t.ple.rescan = false
  idle : s.ple.op = none → t.ple.scan = none ∧ t.tsm = s.tsm ∧ t.ple.placementQ = s.ple.placementQ
  running : ∀ o, s.ple.op = some o → o.phase ≠ .waiting → t.ple.op = some o ∧ t.tsm = s.tsm
  waiting : ∀ o, s.ple.op = some o → o.phase = .waiting → t.ple.op = none ∧ (o.kind = .release → t.ple.scan = none) ∧
    t.tsm.entries = s.tsm.entries.set o.slot { s.entry o.slot with state := .posted, path := none, pslot := none } ∧
    insertedAt s.slotOrder o.slot s.ple.placementQ t.ple.placementQ ∧ t.tsm = { s.tsm with entries := t.tsm.entries }

/-- A claim on an engine whose operation is not abandoned. -/
theorem claims_claimed {s : State} (kept : ∀ o, s.ple.op = some o → o.phase ≠ .waiting) : Claims s s.claimed where
  claim := rfl
  rest := rfl
  marks scan := ⟨if_neg scan, if_neg scan⟩
  idle op := ⟨if_pos op, rfl, rfl⟩
  running _ op _ := ⟨op, rfl⟩
  waiting o op phase := absurd phase (kept o op)

theorem claimEngine_claims (s : State) : Claims s (claimEngine s) := by
  rw [claimEngine_claimed]
  cases op : s.ple.op with
  | none => exact claims_claimed fun o some => nomatch op.symm.trans some
  | some o =>
    by_cases phase : o.phase = .waiting
    · simp only [phase, if_true]
      have present : s.claimed.ple.op = some o := op
      obtain ⟨u, ⟨q, placed, requeued⟩, ended⟩ := abandonOp_requeued present
      obtain ⟨none, claim, entries, inserted, rest, release, other⟩ := abandonOp_claimed present rfl
      refine ⟨claim, rest.trans rfl, fun scan => ?_, fun idle => (nomatch op.symm.trans idle), fun o' op' other => ?_,
        fun o' op' _ => ?_⟩
      · by_cases kind : o.kind = .release
        · exact (release kind).2
        · obtain ⟨rexPending, rescan⟩ := other kind
          exact ⟨rexPending.trans (if_neg scan), rescan.trans (if_neg scan)⟩
      · obtain rfl : o = o' := Option.some.inj (op.symm.trans op')
        exact absurd phase other
      · obtain rfl : o = o' := Option.some.inj (op.symm.trans op')
        refine ⟨none, fun kind => (release kind).1, entries, inserted, ?_⟩
        have tsm : (abandonOp s.claimed).tsm = u.tsm := by
          rw [ended]
          unfold State.opEnded
          split
          · rfl
          · rfl
          · split <;> rfl
        rw [tsm, requeued]
        rfl
    · simp only [phase, if_false]
      refine claims_claimed fun o' op' => ?_
      obtain rfl : o = o' := Option.some.inj (op.symm.trans op')
      exact phase

/-! ### The start of a migration (R127) -/

/-- The state a migration claims the engine in: the switch set, the service path changed, and NO_PATH raised for NONE. -/
def State.migrationBegun (s : State) (target : Option Path) (kind : MigrationKind) : State :=
  let served := setService
    { s with swc.state := .migrating, swc.target := some target, swc.kind := some kind } target
  if target = none then served.faulted .path .noPath none none else served

theorem startMigration_begun (s : State) (target : Option Path) (kind : MigrationKind) :
    startMigration s target kind = claimEngine (s.migrationBegun target kind) := by
  unfold startMigration State.migrationBegun
  simp only
  rw [takeFault_faulted]
  rfl

/-- What the begun migration has changed: the switch, the path monitor, and the fault of a migration to NONE. -/
theorem migrationBegun_frame (s : State) (target : Option Path) (kind : MigrationKind) :
    let u := s.migrationBegun target kind
    u = { s with swc := u.swc, pmn := u.pmn, pcf := u.pcf, sdc := u.sdc } ∧
      u.swc =
        { s.swc with
          state := .migrating, target := some target, kind := some kind, service := target
          voice := if target = none then ⟨false, none⟩ else s.swc.voice
          emergency := if target = none then ⟨false, none⟩ else s.swc.emergency } ∧
      u.pmn = (if s.swc.service = target then s.pmn else s.monitorServing target) ∧
      (target = none → u.pcf = (s.faulted .path .noPath none none).pcf ∧ u.sdc = (s.faulted .path .noPath none none).sdc) ∧
      (target ≠ none → u.pcf = s.pcf ∧ u.sdc = s.sdc) := by
  intro u
  obtain ⟨frame, -, swc⟩ := setService_frame
    { s with swc.state := .migrating, swc.target := some target, swc.kind := some kind } target
  have pmn := setService_pmn
    { s with swc.state := .migrating, swc.target := some target, swc.kind := some kind } target
  have begun : u = if target = none then (setService { s with
      swc.state := .migrating, swc.target := some target, swc.kind := some kind } target).faulted .path .noPath none none
      else setService { s with
        swc.state := .migrating, swc.target := some target, swc.kind := some kind } target := rfl
  generalize setService
    { s with swc.state := .migrating, swc.target := some target, swc.kind := some kind } target = w at frame swc pmn begun
  by_cases none : target = none
  · rw [begun.trans (if_pos none)]
    refine ⟨?_, swc, pmn, fun _ => ?_, fun path => absurd none path⟩
    · rw [frame]
      rfl
    · rw [frame]
      exact ⟨rfl, rfl⟩
  · rw [begun.trans (if_neg none)]
    refine ⟨frame.trans ?_, swc, pmn, fun path => absurd path none, fun _ => ?_⟩
    · rw [frame]
    · rw [frame]
      exact ⟨rfl, rfl⟩

/-- Settles O28: a migration begins (`migrationBegun_frame`), then claims the engine (`claimEngine_claims`). -/
theorem migrationStart : Obligations.MigrationStart := by
  intro s target kind t
  obtain ⟨frame, swc, pmn, noPath, path⟩ := migrationBegun_frame s target kind
  have claims : Claims (s.migrationBegun target kind) t := by
    unfold t
    rw [startMigration_begun]
    exact claimEngine_claims _
  generalize s.migrationBegun target kind = u at frame swc pmn noPath path claims
  have tsm : u.tsm = s.tsm := by rw [frame]
  have ple : u.ple = s.ple := by rw [frame]
  have order : u.slotOrder = s.slotOrder := by
    rw [frame]
    rfl
  have entry (i : Nat) : u.entry i = s.entry i := congrArg (fun m : Tsm => m.entries.getD i freeEntry) tsm
  obtain ⟨claim, rest, marks, idle, running, waiting⟩ := claims
  rw [ple] at marks idle running waiting
  rw [tsm] at idle running waiting
  have switch : t.swc = { u.swc with step := t.swc.step } := (congrArg State.swc rest).trans rfl
  rw [swc] at switch
  have monitor : t.pmn = u.pmn := (congrArg State.pmn rest).trans rfl
  have faults : t.pcf = u.pcf ∧ t.sdc = u.sdc :=
    ⟨(congrArg State.pcf rest).trans rfl, (congrArg State.sdc rest).trans rfl⟩
  have engine : t.ple.deferralQ = s.ple.deferralQ ∧ t.ple.rings = s.ple.rings :=
    ple ▸ ⟨(congrArg (fun v : State => v.ple.deferralQ) rest).trans rfl,
      (congrArg (fun v : State => v.ple.rings) rest).trans rfl⟩
  have others : t.rmu = s.rmu ∧ t.umt = s.umt ∧ t.fsp = s.fsp := by
    rw [rest, frame]
    exact ⟨rfl, rfl, rfl⟩
  refine ⟨by rw [switch], by rw [switch], by rw [switch], by rw [switch], claim, by rw [switch], by rw [switch],
    by rw [switch], marks, idle, running, fun o op phase => ?_, fun none => ?_, fun some => ?_, engine.1, engine.2,
    others.1, others.2.1, others.2.2, by rw [switch], by rw [switch], fun same => ?_, fun change => ?_⟩
  · obtain ⟨gone, scan, entries, inserted, records⟩ := waiting o op phase
    rw [entry] at entries
    rw [order] at inserted
    refine ⟨gone, scan, entries, ?_⟩
    have posted : t.tsm = (setEntry s o.slot
        { s.entry o.slot with state := .posted, path := none, pslot := none }).tsm := by
      rw [records, entries]
      rfl
    have kept : (fun j => t.slotOrder j) = s.slotOrder := by
      funext j
      have view : t.slotOrder j = (setEntry s o.slot
          { s.entry o.slot with state := .posted, path := none, pslot := none }).slotOrder j := by
        unfold State.slotOrder State.orderOf State.seqBase State.entry
        rw [posted]
        rfl
      exact view.trans (slotOrder_setEntry s o.slot j _ rfl)
    rw [kept]
    exact inserted
  · obtain ⟨pcf, sdc⟩ := noPath none
    exact ⟨by rw [switch]; exact if_pos none, by rw [switch]; exact if_pos none, faults.1.trans pcf, faults.2.trans sdc⟩
  · obtain ⟨pcf, sdc⟩ := path some
    exact ⟨by rw [switch]; exact if_neg some, by rw [switch]; exact if_neg some, faults.1.trans pcf, faults.2.trans sdc⟩
  · rw [monitor, pmn, if_pos same]
  · intro onDemand keep asleep
    have standby : asleep ↔ s.pmn.power.phase = .standby := by
      refine ⟨And.left, fun phase => ⟨phase, ?_⟩⟩
      rintro ⟨policy, -, fibre, stopped⟩
      have kept : keep = some 0 := (if_neg (not_not_intro fibre)).trans (if_pos policy)
      exact nomatch kept.symm.trans stopped
    rw [monitor, pmn, if_neg change]
    exact (if_congr standby rfl rfl).symm

end Sys2Proof.Machine

/-! SUPPORT. The completion of a far cycle of the part: the port freed, and what the unit that asked for the access does
(R33, R36, R41, R49 to R59, R163, R188, R190). -/

namespace Sys2Proof.Machine

/-! ### The access in flight (R163, R190) -/

section
variable {s : State} {k : AccessKind} (act : State → Access → State)

theorem inFlight_part {a : Access} (port : s.fsp.port = .part a) (kind : a.kind = k) : s.inFlight k = some a := by
  unfold State.inFlight
  rw [port]
  exact if_pos kind

/-- A completion that applies frees the port and lets the unit act. -/
theorem completeAccess_carries {a : Access} (h : s.carries k a) :
    completeAccess s k act = act { s with fsp.port := .free } a := by
  obtain ⟨port, kind, kept, running⟩ := h
  have applies : s.applies a = true := by simp [State.applies, kept, running]
  unfold completeAccess
  rw [inFlight_part port kind]
  exact if_pos applies

/-- A completion after RECONFIGURE or in HALTED frees the port only. -/
theorem completeAccess_cut {a : Access} (port : s.fsp.port = .part a) (kind : a.kind = k)
    (cut : a.void = true ∨ s.pcf.part = .halted) : completeAccess s k act = { s with fsp.port := .free } := by
  have idle : ¬ s.applies a = true := by
    rcases cut with void | halted
    · simp [State.applies, void]
    · simp [State.applies, halted]
  unfold completeAccess
  rw [inFlight_part port kind]
  exact if_neg idle

theorem completeAccess_none (h : ∀ a, s.fsp.port = .part a → a.kind ≠ k) : completeAccess s k act = s := by
  have none : s.inFlight k = none := by
    unfold State.inFlight
    split
    · rename_i a port
      exact if_neg (h a port)
    all_goals rfl
  unfold completeAccess
  rw [none]

end

/-- What the unit does that asked for the access a completion command completes. -/
def completionAct (c : Instr) : State → Access → State :=
  match c with
  | .placementReadComplete d => readDone d
  | .publication => copyDone
  | .withdrawalWriteComplete => withdrawalDone
  | .mirrorWriteComplete => serviceWriteDone
  | .finalWriteComplete => serviceWriteDone
  | .startReadComplete v => startReadDone v
  | .startWriteComplete => startWriteDone
  | _ => fun s _ => s

theorem exec_completion {c : Instr} {k : AccessKind} (h : completes c = some k) (s : State) :
    exec c s = .next (completeAccess s k (completionAct c)) := by
  cases c <;> cases h <;> rfl

theorem exec_carries {c : Instr} {k : AccessKind} {s : State} {a : Access} (h : completes c = some k)
    (carries : s.carries k a) : exec c s = .next (completionAct c { s with fsp.port := .free } a) :=
  (exec_completion h s).trans (congrArg _ (completeAccess_carries _ carries))

/-- Settles O41: by `completeAccess`, which acts only where the completion applies. -/
theorem completionsFreePort : Obligations.CompletionsFreePort := by
  intro s c k h
  refine ⟨fun a carries kind i slot => ?_, fun a carries kind => ?_, fun a port kind cut => ?_, fun none => ?_⟩
  · have done (u : State) : serviceWriteDone u a = setEntry u i { u.entry i with finalPending := some false } := by
      unfold serviceWriteDone
      rw [slot]
    have act : completionAct c = serviceWriteDone := by
      cases c <;> rcases kind with rfl | rfl <;> cases h <;> rfl
    rw [exec_carries h carries, act, done]
    rfl
  · have act : completionAct c = fun u _ => u := by
      subst kind
      cases c <;> cases h
      rfl
    rw [exec_carries h carries, act]
  · rw [exec_completion h, completeAccess_cut _ port kind cut]
  · rw [exec_completion h, completeAccess_none _ none]

/-! ### Publication (R59, R118) -/

theorem retrigger_flags (s : State) (cls : Option Cls) : retrigger s (cls.getD 0) =
    { s with
      swc.emergency := if s.swc.service ≠ none ∧ cls = some 1 then ⟨true, some 0⟩ else s.swc.emergency
      swc.voice := if s.swc.service ≠ none ∧ cls = some 2 then ⟨true, some 0⟩ else s.swc.voice } := by
  have named (c : Cls) (other : (0 : Cls) ≠ c) : cls.getD 0 = c ↔ cls = some c := by
    cases cls with
    | none => exact iff_of_false other nofun
    | some b => exact ⟨congrArg some, Option.some.inj⟩
  have one := named 1 (by decide)
  have two := named 2 (by decide)
  unfold retrigger
  by_cases service : s.swc.service = none
  · have none (c : Cls) : ¬ (s.swc.service ≠ none ∧ cls = some c) := fun h => h.1 service
    rw [if_pos service, if_neg (none 1), if_neg (none 2)]
  · simp only [service, if_false, ne_eq, not_false_eq_true, true_and, one, two]
    by_cases emergency : cls = some 1
    · subst emergency
      rfl
    · by_cases voice : cls = some 2
      · subst voice
        rfl
      · simp only [emergency, voice, if_false]

/-- Settles O39: the copy's completion is `publish`, whose header write is one request (`requestHeader_spec`). -/
theorem publicationMapsSlot : Obligations.PublicationMapsSlot := by
  intro s a o ps carries op pslot e r w
  let placed : State := setRing (setEntry { s with fsp.port := .free } o.slot { e with state := .placed }) o.target
    { r with producer := r.producer + 1, slots := r.slots.set ps ⟨true, some o.slot, false⟩ }
  have word : txProducerWord o.target = w := by
    unfold w
    cases o.target <;> rfl
  have path : headerPath w = some o.target := by
    unfold w
    cases o.target <;> rfl
  obtain ⟨frame, requested⟩ := requestHeader_spec placed w (r.producer + 1)
  refine ⟨(requestHeader placed w (r.producer + 1)).fsp.list, ?_, ?_⟩
  · have access : headerAccess placed w (r.producer + 1) = s.headerWrite w (r.producer + 1) (some o.target) := by
      rw [← path]
      rfl
    exact access ▸ requested
  · have published : publish { s with fsp.port := .free } o =
        endOp (retrigger (requestHeader placed w (r.producer + 1)) (e.cls.getD 0)) none := by
      rw [← word]
      unfold publish
      have slot : (({ s with fsp.port := .free } : State).entry o.slot).pslot.getD 0 = ps :=
        congrArg (·.getD 0) pslot
      simp only [slot]
      rfl
    have done : copyDone { s with fsp.port := .free } a = settleWork (publish { s with fsp.port := .free } o) := by
      unfold copyDone
      simp only [op]
    rw [exec_carries rfl carries]
    refine congrArg _ (done.trans (congrArg settleWork ?_))
    rw [published, retrigger_flags, frame]
    exact endOp_opEnded (by exact op) none

/-! ### A withdrawal's completion (R41, R131, R134) -/

theorem setEntry_setEntry (s : State) (i : Nat) (e f : TxEntry) : setEntry (setEntry s i e) i f = setEntry s i f := by
  simp [setEntry]

/-- Settles O40: the path slot is withdrawn, and the entry re-decided (`beginOp_begun`) or requeued (`requeue_requeued`). -/
theorem withdrawalIsRedecided : Obligations.WithdrawalIsRedecided := by
  intro s a i ps p carries slot entry path pslot r u
  let unmapped : State := setEntry u i { s.entry i with path := none, pslot := none }
  have own : unmapped.entry i = { s.entry i with path := none, pslot := none } := entry_setEntry_same u i _ entry
  have split : withdrawn { s with fsp.port := .free } i = match unmapped.ple.claim, unmapped.swc.target with
      | .held, some (some t) => beginOp unmapped i .reDecision t
      | _, _ => requeue { unmapped with swc.step := none } i := by
    have e : ({ s with fsp.port := .free } : State).entry i = s.entry i := rfl
    unfold withdrawn
    simp only [e, path, pslot]
    rfl
  have done : exec .withdrawalWriteComplete s = .next (settleWork (withdrawn { s with fsp.port := .free } i)) := by
    rw [exec_carries rfl carries]
    refine congrArg _ ?_
    show withdrawalDone _ a = _
    unfold withdrawalDone
    rw [slot]
  refine ⟨fun t claim target => ?_, fun restarted => ?_⟩
  · have redecided : withdrawn { s with fsp.port := .free } i = beginOp unmapped i .reDecision t := by
      rw [split]
      have held : unmapped.ple.claim = .held := claim
      have toward : unmapped.swc.target = some (some t) := target
      rw [held, toward]
    rw [done, redecided]
    refine congrArg (fun v => Host.Outcome.next (settleWork v)) ?_
    have placing : setEntry unmapped i { unmapped.entry i with state := .placing, path := some t, pslot := none } =
        setEntry u i { s.entry i with state := .placing, path := some t, pslot := none } := by
      rw [own]
      exact setEntry_setEntry u i _ _
    exact congrArg (fun v : State => { v with
      ple.op := some ⟨i, .reDecision, .reading, t⟩, fsp.copyReq := some (placementReadAccess s i) }) placing
  · have returned : withdrawn { s with fsp.port := .free } i = requeue { unmapped with swc.step := none } i := by
      rw [split]
      split
      · rename_i claim target
        rcases restarted with e | e | e
        · exact absurd claim e
        · exact nomatch e.symm.trans target
        · exact nomatch e.symm.trans target
      · rfl
    obtain ⟨q, inserted, requeued⟩ := requeue_requeued { unmapped with swc.step := none } i
    refine ⟨_, ⟨q, ?_, ?_⟩, done.trans (by rw [returned])⟩
    · have order : State.slotOrder { unmapped with swc.step := none } = State.slotOrder { u with swc.step := none } :=
        funext fun j => slotOrder_setEntry { u with swc.step := none } i j _ rfl
      exact order ▸ inserted
    · rw [requeued]
      have posted : setEntry unmapped i { unmapped.entry i with state := .posted, path := none, pslot := none } =
          setEntry u i { s.entry i with state := .posted, path := none, pslot := none } := by
        rw [own]
        exact setEntry_setEntry u i _ _
      exact congrArg (fun v : State => { v with ple.placementQ := q, swc.step := none }) posted

end Sys2Proof.Machine

/-! SUPPORT. The placement read's completion: the length, the class order, the policy, the credit and the ring, in that order
(R49 to R57, R66); what the work after it does to a completed entry's status; and the START sequence (R188). -/

namespace Sys2Proof.Machine

/-! ### The decision steps (R50 to R54, R66) -/

section
variable {s : State} {o : Operation} (op : s.ple.op = some o)

theorem decideOp_release (kind : o.kind = .release) : decideOp s o = creditAndRing s o := if_pos kind

section
variable (kind : o.kind ≠ .release)
include kind

include op in
theorem decideOp_invalid (length : ((s.entry o.slot).len.getD 0).toNat = 0 ∨ 2047 < ((s.entry o.slot).len.getD 0).toNat) :
    decideOp s o =
      ((s.skippedWith o.slot 11).faulted .notice .invalidDescriptor none (some o.slot)).opEnded o none := by
  have skipped : takeFault (skipEntry s o.slot 11) .invalidDescriptor none (some o.slot) =
      (s.skippedWith o.slot 11).faulted .notice .invalidDescriptor none (some o.slot) := by
    rw [skipEntry_skipped]
    exact takeFault_class rfl _ _ _
  refine (if_neg kind).trans ((if_pos length).trans ?_)
  rw [skipped]
  exact endOp_opEnded (by exact op) none

variable (length : 1 ≤ ((s.entry o.slot).len.getD 0).toNat ∧ ((s.entry o.slot).len.getD 0).toNat ≤ 2047)
include length

/-- A valid length goes on to the class order and the policy. -/
theorem decideOp_valid : decideOp s o =
    if s.olderWaits o.slot ((s.entry o.slot).cls.getD 0) then
      (if (s.entry o.slot).cls.getD 0 = 1 then abandonOp s
      else endOp (deferEntry s o.slot) (some ((s.entry o.slot).cls.getD 0)))
    else
      match s.action o.target ((s.entry o.slot).cls.getD 0) with
      | .pass => creditAndRing s o
      | .defer => endOp (deferEntry s o.slot) (some ((s.entry o.slot).cls.getD 0))
      | .skip => endOp (skipEntry s o.slot 8) none := by
  have valid : ¬ (((s.entry o.slot).len.getD 0).toNat = 0 ∨ 2047 < ((s.entry o.slot).len.getD 0).toNat) := by omega
  exact (if_neg kind).trans (if_neg valid)

theorem decideOp_older (older : s.hasOlder o.slot ((s.entry o.slot).cls.getD 0)) : decideOp s o =
    if (s.entry o.slot).cls.getD 0 = 1 then abandonOp s
    else endOp (deferEntry s o.slot) (some ((s.entry o.slot).cls.getD 0)) :=
  (decideOp_valid kind length).trans (if_pos ((olderWaits_iff s _ _).2 older))

theorem decideOp_first (first : ¬ s.hasOlder o.slot ((s.entry o.slot).cls.getD 0)) : decideOp s o =
    match s.actionOn o.target ((s.entry o.slot).cls.getD 0) with
    | .pass => creditAndRing s o
    | .defer => endOp (deferEntry s o.slot) (some ((s.entry o.slot).cls.getD 0))
    | .skip => endOp (skipEntry s o.slot 8) none := by
  rw [← action_actionOn]
  exact (decideOp_valid kind length).trans (if_neg (mt (olderWaits_iff s _ _).1 first))

end

end

/-- A placement read's completion decides on the words read. -/
theorem exec_placementRead {s : State} {a : Access} {o : Operation} (d : Descriptor) (carries : s.carries .placementRead a)
    (op : s.ple.op = some o) : exec (.placementReadComplete d) s =
      .next (settleWork (decideOp (({ s with fsp.port := .free } : State).readInto o.slot d) o)) := by
  rw [exec_carries rfl carries]
  refine congrArg _ ?_
  show readDone d _ a = _
  unfold readDone
  simp only [op]
  rfl

/-- Settles O38: the decision's branches by name, each ending as the engine's operations do. -/
theorem placementReadDecides : Obligations.PlacementReadDecides := by
  intro s a o d carries op entry b cls len ring decided deferred requeued valid
  have taken := exec_placementRead d carries op
  have present : b.ple.op = some o := op
  have defers (h : decideOp b o = endOp (deferEntry b o.slot) (some cls)) : deferred := by
    obtain ⟨u, placed, ended⟩ := endOp_deferred present (some cls)
    exact ⟨u, placed, taken.trans (by rw [← ended, ← h])⟩
  have requeues (h : decideOp b o = abandonOp b) : requeued := by
    obtain ⟨u, placed, ended⟩ := abandonOp_requeued present
    exact ⟨u, placed, taken.trans (by rw [← ended, ← h])⟩
  have credits (h : decided) : decideOp b o = creditAndRing b o := by
    rcases h with release | ⟨first, pass⟩
    · exact decideOp_release release
    · by_cases release : o.kind = .release
      · exact decideOp_release release
      · rw [decideOp_first release (valid release) first, pass]
  refine ⟨fun kind older other => defers ?_, fun kind older one => requeues ?_, fun kind first action => defers ?_,
    fun kind first action => ?_, fun h poor => ?_, fun h rich => ⟨fun room => ?_, fun full pending => requeues ?_,
      fun full unclaimed => ?_⟩⟩
  · rw [decideOp_older kind (valid kind) older, if_neg other]
  · rw [decideOp_older kind (valid kind) older, if_pos one]
  · rw [decideOp_first kind (valid kind) first, action]
  · rw [taken, decideOp_first kind (valid kind) first, action]
    refine congrArg (fun u => Host.Outcome.next (settleWork u)) ?_
    have skipped : skipEntry b o.slot 8 = b.skippedWith o.slot 8 := skipEntry_skipped b o.slot 8
    simp only [skipped]
    exact endOp_opEnded (by exact op) none
  · obtain ⟨u, placed, ended⟩ := creditAndRing_poor present poor
    exact ⟨u, placed, taken.trans (by rw [← ended, ← credits h])⟩
  · rw [taken, credits h, creditAndRing_rich rich]
    exact congrArg (fun u => Host.Outcome.next (settleWork u)) (if_pos room)
  · rw [credits h, creditAndRing_rich rich]
    exact (if_neg (Nat.not_lt.mpr full)).trans (if_pos pending)
  · rw [taken, credits h, creditAndRing_rich rich]
    exact congrArg (fun u => Host.Outcome.next (settleWork u)) ((if_neg (Nat.not_lt.mpr full)).trans (if_neg unclaimed))

end Sys2Proof.Machine

/-! SUPPORT. The statuses the part gives of its own in the zero-time work (R36, R65), and the START sequence (R188). -/

namespace Sys2Proof.Machine

/-! ### Statuses of the part's own (R36) -/

/-- Every entry keeps its final status, or takes that of a policy's skip or of a full deferral queue. -/
def StatusKept (s t : State) : Prop :=
  ∀ i, (t.entry i).final = (s.entry i).final ∨ (t.entry i).final = some 8 ∨ (t.entry i).final = some 10

theorem StatusKept.of_tsm {s t : State} (h : t.tsm = s.tsm) : StatusKept s t :=
  fun i => .inl (congrArg (fun m : Tsm => (m.entries.getD i freeEntry).final) h)

theorem StatusKept.refl (s : State) : StatusKept s s := .of_tsm rfl

theorem StatusKept.trans {s t u : State} (h : StatusKept s t) (k : StatusKept t u) : StatusKept s u := by
  intro i
  rcases k i with same | given
  · rw [same]
    exact h i
  · exact .inr given

theorem StatusKept.then_tsm {s t u : State} (h : StatusKept s t) (k : u.tsm = t.tsm) : StatusKept s u :=
  h.trans (.of_tsm k)

theorem StatusKept.ite {s a b : State} {c : Prop} [Decidable c] (ha : StatusKept s a) (hb : StatusKept s b) :
    StatusKept s (if c then a else b) := by
  split
  · exact ha
  · exact hb

theorem setEntry_status {s : State} {i : Nat} {e : TxEntry}
    (h : e.final = (s.entry i).final ∨ e.final = some 8 ∨ e.final = some 10) : StatusKept s (setEntry s i e) := by
  intro j
  by_cases own : j = i
  · subst own
    by_cases inside : j < s.tsm.entries.length
    · rw [entry_setEntry_same s j e inside]
      exact h
    · have same : s.tsm.entries.set j e = s.tsm.entries := List.set_eq_of_length_le (Nat.le_of_not_lt inside)
      exact .inl (congrArg (fun l : List TxEntry => (l.getD j freeEntry).final) same)
  · exact .inl (congrArg TxEntry.final (entry_setEntry_other s i j e own))

theorem StatusKept.of_entry {s t : State} {i : Nat} {e : TxEntry} (tsm : t.tsm = (setEntry s i e).tsm)
    (h : e.final = (s.entry i).final ∨ e.final = some 8 ∨ e.final = some 10) : StatusKept s t :=
  (setEntry_status h).then_tsm tsm

theorem skipEntry_status (s : State) (i : Nat) {st : Status} (h : st = 8 ∨ st = 10) : StatusKept s (skipEntry s i st) :=
  (setEntry_status (.inr (h.imp (congrArg some) (congrArg some)))).then_tsm rfl

theorem beginOp_status (s : State) (i : Nat) (kind : OpKind) (p : Path) : StatusKept s (beginOp s i kind p) :=
  .of_entry rfl (.inl rfl)

theorem endOp_tsm (s : State) (b : Option Cls) : (endOp s b).tsm = s.tsm := by
  obtain ⟨-, -, -, -, -, tsm, -⟩ := endOp_frame s b
  exact tsm

theorem abandonOp_status (s : State) : StatusKept s (abandonOp s) := by
  unfold abandonOp
  split
  · exact .refl s
  · have requeued (i : Nat) : StatusKept s (requeue s i) := .of_entry rfl (.inl rfl)
    exact (requeued _).then_tsm (endOp_tsm _ _)

theorem deferEntry_status (s : State) (i : Nat) : StatusKept s (deferEntry s i) :=
  .ite (.of_entry rfl (.inl rfl)) ((skipEntry_status s i (.inr rfl)).then_tsm rfl)

theorem creditAndRing_status (s : State) (o : Operation) : StatusKept s (creditAndRing s o) := by
  unfold creditAndRing
  simp only
  refine .ite ((deferEntry_status s o.slot).then_tsm (endOp_tsm _ _)) (.ite ?_ (.ite (abandonOp_status s) (.of_tsm rfl)))
  exact .of_entry rfl (.inl rfl)

/-- A decision on a valid length gives no status but a policy's skip or a full queue's. -/
theorem decideOp_status {s : State} {o : Operation} (kind : o.kind ≠ .release)
    (length : 1 ≤ ((s.entry o.slot).len.getD 0).toNat ∧ ((s.entry o.slot).len.getD 0).toNat ≤ 2047) :
    StatusKept s (decideOp s o) := by
  have deferred (b : Option Cls) : StatusKept s (endOp (deferEntry s o.slot) b) :=
    (deferEntry_status s o.slot).then_tsm (endOp_tsm _ _)
  rw [decideOp_valid kind length]
  refine .ite (.ite (abandonOp_status s) (deferred _)) ?_
  split
  · exact creditAndRing_status s o
  · exact deferred _
  · exact (skipEntry_status s o.slot (.inl rfl)).then_tsm (endOp_tsm _ _)

/-! ### The zero-time work -/

theorem scanStep_status (s : State) (c : Scan) (p : Path) : StatusKept s (scanStep s c p) := by
  unfold scanStep
  split
  · exact .of_tsm rfl
  · rename_i r _
    simp only
    have removed (scan : Option Scan) : StatusKept s (removeRecord { s with ple.scan := scan } r.slot) := .of_tsm rfl
    refine .ite (.of_tsm rfl) ?_
    split
    · exact (removed _).trans (skipEntry_status _ _ (.inl rfl))
    · exact .of_tsm rfl
    · exact .ite (.of_tsm rfl) ((removed _).trans (beginOp_status _ _ _ _))

theorem engineStep_status {s t : State} (work : engineStep s = some t) : StatusKept s t := by
  have begun (u : State) (tsm : u.tsm = s.tsm) (i : Nat) (p : Path) (e : some (beginOp u i .placement p) = some t) :
      StatusKept s t := by
    injection e with e
    exact e ▸ (StatusKept.of_tsm tsm).trans (beginOp_status u i .placement p)
  unfold engineStep at work
  split at work
  · split at work
    · injection work with judged
      exact judged ▸ scanStep_status s _ _
    · split at work
      · injection work with scanning
        exact scanning ▸ .of_tsm rfl
      · split at work
        · split at work
          · exact begun _ (by rfl) _ _ work
          · split at work
            · cases work
            · exact begun _ (by rfl) _ _ work
        · exact begun _ (by rfl) _ _ work
        · cases work
  · cases work

theorem settleEngine_status (s : State) : StatusKept s (settleEngine s) := by
  have run (n : Nat) (u : State) : StatusKept u (runEngine n u) := by
    induction n generalizing u with
    | zero => exact .refl u
    | succ n ih =>
      unfold runEngine
      split
      · exact .refl u
      · rename_i t work
        exact (engineStep_status work).trans (ih t)
  exact run _ s

theorem claimEngine_status (s : State) : StatusKept s (claimEngine s) := by
  have claims := claimEngine_claims s
  cases op : s.ple.op with
  | none => exact .of_tsm (claims.idle op).2.1
  | some o =>
    by_cases phase : o.phase = .waiting
    · obtain ⟨-, -, entries, -, -⟩ := claims.waiting o op phase
      have posted : (claimEngine s).tsm.entries = (setEntry s o.slot
          { s.entry o.slot with state := .posted, path := none, pslot := none }).tsm.entries := entries
      have kept : StatusKept s (setEntry s o.slot
          { s.entry o.slot with state := .posted, path := none, pslot := none }) := setEntry_status (.inl rfl)
      intro i
      have same := congrArg (fun l : List TxEntry => (l.getD i freeEntry).final) posted
      exact same ▸ kept i
    · exact .of_tsm (claims.running o op phase).2

theorem startMigration_status (s : State) (target : Option Path) (kind : MigrationKind) :
    StatusKept s (startMigration s target kind) := by
  rw [startMigration_begun]
  obtain ⟨frame, -⟩ := migrationBegun_frame s target kind
  exact (StatusKept.of_tsm ((congrArg State.tsm frame).trans rfl)).trans (claimEngine_status _)

theorem testWait_status (s : State) : StatusKept s (testWait s) :=
  .ite ((StatusKept.of_tsm rfl).trans (startMigration_status (stopWait s) _ _)) (.refl s)

theorem arrivalTrigger_status (s : State) : StatusKept s (arrivalTrigger s) :=
  .ite (.ite (startMigration_status s _ _) (.ite (startMigration_status s _ _) (.refl s))) (.refl s)

theorem failbackTest_status (s : State) : StatusKept s (failbackTest s) := by
  refine .ite ?_ (.refl s)
  split
  · exact .of_tsm rfl
  · exact .ite ((StatusKept.of_tsm rfl).trans (testWait_status _)) (.refl s)

theorem endMigration_status (s : State) : StatusKept s (endMigration s) := by
  have triggered {t : State} (h : StatusKept s t) : StatusKept s (if t.swc.service = none then arrivalTrigger t
      else if t.swc.service = some .radio then failbackTest t else t) :=
    .ite (h.trans (arrivalTrigger_status t)) (.ite (h.trans (failbackTest_status t)) h)
  have counted {t : State} (h : StatusKept s t) : StatusKept s (match s.swc.kind with
      | some .failover => { t with swc.failovers := satInc 65535 t.swc.failovers }
      | some .failback => { t with swc.failbacks := satInc 65535 t.swc.failbacks }
      | some .arrival => t
      | some .forced => t
      | none => t : State) := by
    split <;> exact h.then_tsm rfl
  have prompted (t : State) : (prompt t).tsm = t.tsm := by
    rw [prompt_prompted, prompted_frame]
  have chosen : StatusKept s (settleEngine { s with
      swc.state := .steady, swc.target := none, swc.kind := none, swc.step := none, ple.claim := .none }) :=
    (StatusKept.of_tsm rfl).trans (settleEngine_status _)
  have scanned := (chosen.then_tsm (prompted _)).trans (settleEngine_status _)
  unfold endMigration
  exact triggered (counted ((StatusKept.ite scanned chosen).then_tsm rfl))

theorem workStep_status {s t : State} (work : workStep s = some t) : StatusKept s t := by
  unfold workStep at work
  split at work
  · exact engineStep_status work
  · split at work
    · injection work with granted
      exact granted ▸ .of_tsm rfl
    · cases work
  · split at work
    · split at work
      · injection work with ended
        exact ended ▸ endMigration_status s
      · injection work with examined
        rw [← examined]
        unfold examine
        simp only
        split
        · exact .of_entry rfl (.inl rfl)
        · exact .of_tsm rfl
    · cases work

theorem settleWork_status (s : State) : StatusKept s (settleWork s) := by
  have run (n : Nat) (u : State) : StatusKept u (runWork n u) := by
    induction n generalizing u with
    | zero => exact .refl u
    | succ n ih =>
      unfold runWork
      split
      · exact .refl u
      · rename_i t work
        exact (workStep_status work).trans (ih t)
  refine (run s.workFuel s).then_tsm ?_
  unfold settleWork
  rw [syncTimers_inLine]
  rfl

/-- Settles O37: an invalid length is skipped at once (`decideOp_invalid`); a valid one is decided and settled with no other
status of the part's own than 8 and 10 (`decideOp_status`, `settleWork_status`). -/
theorem invalidLengthIsSkipped : Obligations.InvalidLengthIsSkipped := by
  intro s a o d carries op kind entry b len
  have taken := exec_placementRead d carries op
  refine ⟨fun invalid => ?_, fun low high unfinished => ⟨_, taken, ?_⟩⟩
  · rw [taken, decideOp_invalid (by exact op) kind invalid]
  · have read : (b.entry o.slot).final = none := by
      have own : b.entry o.slot = _ := entry_setEntry_same { s with fsp.port := .free } o.slot _ entry
      rw [own]
      exact unfinished
    rcases ((decideOp_status kind ⟨low, high⟩).trans (settleWork_status _)) o.slot with same | given | given
    · rw [same, read]
      nofun
    · rw [given]
      decide
    · rw [given]
      decide

end Sys2Proof.Machine

/-! SUPPORT. The START sequence (R16, R188): its reads, its writes, and the part's entry into ACTIVE. -/

namespace Sys2Proof.Machine

/-- A START read's completion: the owner takes the value, and the next access is requested. -/
theorem exec_startRead {s : State} {a : Access} (v : Word) (carries : s.carries .startRead a) :
    exec (.startReadComplete v) s = .next (startReadDone v { s with fsp.port := .free } a) := exec_carries rfl carries

theorem exec_startWrite {s : State} {a : Access} (carries : s.carries .startWrite a) :
    exec .startWriteComplete s = .next (startWriteDone { s with fsp.port := .free } a) := exec_carries rfl carries

/-! ### The entry into ACTIVE (R93, R113, R136) -/

/-- The part ACTIVE with its pool full and its silence counts cleared, before the service path is set. -/
def State.activated (s : State) : State :=
  { s with
    pcf.part := .active
    umt.pool := s.sdc.settings.metering.ceiling
    pmn.recs := ⟨{ s.pathRec .fibre with silence := 0 }, { s.pathRec .radio with silence := 0 }⟩ }

/-- The service path set, with NO_PATH where no path is UP. -/
def State.serving (s : State) : State :=
  let served := setService s.activated s.startService
  if s.startService = none then served.faulted .path .noPath none none else served

theorem becomeActive_serving (s : State) : becomeActive s = settleWork s.serving := by
  have service : s.activated.startService = s.startService := rfl
  unfold becomeActive State.serving
  refine congrArg settleWork ?_
  simp only [takeFault_faulted]
  rfl

/-- With no claim the zero-time work leaves the switch, the records and the meters. -/
theorem settleWork_unclaimed {s : State} (claim : s.ple.claim = .none) : (settleWork s).swc = s.swc ∧
    (settleWork s).pcf = s.pcf ∧ ∀ p, ((settleWork s).pathRec p).silence = (s.pathRec p).silence := by
  obtain ⟨-, swc, pmn, pcf, -⟩ := runEngine_frame s.workFuel s
  have work : settleWork s = (runEngine s.workFuel s).timersInLine := by
    rw [← runWork_engine _ s claim]
    exact syncTimers_inLine _
  rw [work]
  refine ⟨swc, pcf, fun p => ?_⟩
  have timers : ((runEngine s.workFuel s).timersInLine.pathRec p).silence =
      ((runEngine s.workFuel s).pmn.recs.get p).silence := by cases p <;> rfl
  rw [timers, pmn]
  rfl

theorem monitorServing_silence (s : State) (target : Option Path) (p : Path) :
    ((s.monitorServing target).recs.get p).silence = (s.pathRec p).silence := by
  unfold State.monitorServing
  split <;> cases p <;> rfl

/-- What the part is once its service path is set. -/
theorem serving_frame {s : State} (service : s.swc.service = none) :
    let u := s.serving
    u.ple = s.ple ∧ u.umt = { s.umt with pool := s.sdc.settings.metering.ceiling } ∧
      u.swc.service = s.startService ∧ u.swc.state = s.swc.state ∧ u.swc.force = s.swc.force ∧ u.swc.mode = s.swc.mode ∧
      (∀ p, (u.pathRec p).silence = 0) ∧
      (s.startService = none → u.pcf = { (s.faulted .path .noPath none none).pcf with part := .active }) ∧
      (s.startService ≠ none → u.pcf = { s.pcf with part := .active }) := by
  obtain ⟨frame, -, swc⟩ := setService_frame s.activated s.startService
  have pmn := setService_pmn s.activated s.startService
  have silence (p : Path) : ((setService s.activated s.startService).pathRec p).silence = 0 := by
    have cleared : (s.activated.pathRec p).silence = 0 := by cases p <;> rfl
    have same : (setService s.activated s.startService).pmn =
        if s.startService = none then s.activated.pmn else s.activated.monitorServing s.startService := by
      refine pmn.trans (if_congr ⟨fun e => e.symm.trans service, fun e => service.trans e.symm⟩ rfl rfl)
    have record : (setService s.activated s.startService).pathRec p =
        (if s.startService = none then s.activated.pmn else s.activated.monitorServing s.startService).recs.get p :=
      congrArg (fun m : Pmn => m.recs.get p) same
    rw [record]
    split
    · exact cleared
    · exact (monitorServing_silence s.activated _ p).trans cleared
  intro u
  have begun : u = if s.startService = none then (setService s.activated s.startService).faulted .path .noPath none none
      else setService s.activated s.startService := rfl
  generalize setService s.activated s.startService = w at frame swc silence begun
  by_cases none : s.startService = none
  · rw [begun.trans (if_pos none)]
    refine ⟨?_, ?_, congrArg Swc.service swc, (congrArg Swc.state swc).trans rfl,
      (congrArg Swc.force swc).trans rfl, (congrArg Swc.mode swc).trans rfl,
      silence, fun _ => ?_, fun some => absurd none some⟩
    · rw [frame]
      rfl
    · rw [frame]
      rfl
    · rw [frame]
      simp only [State.faulted, State.activated, reduceCtorEq, false_and, not_false_eq_true, and_true]
      rfl
  · rw [begun.trans (if_neg none)]
    refine ⟨?_, ?_, congrArg Swc.service swc, (congrArg Swc.state swc).trans rfl,
      (congrArg Swc.force swc).trans rfl, (congrArg Swc.mode swc).trans rfl,
      silence, fun e => absurd e none, fun _ => ?_⟩
    · rw [frame]
      rfl
    · rw [frame]
      rfl
    · rw [frame]
      rfl

theorem startService_health (s : State) : s.startService =
    if (s.pathRec .fibre).health = .up then some .fibre
    else if (s.pathRec .radio).health = .up then some .radio else none :=
  if_congr (isUp_iff s .fibre) rfl (if_congr (isUp_iff s .radio) rfl rfl)

/-- Settles O42: a START read is `startTake` and the next access; the last write makes the part ACTIVE (`serving_frame`),
and the engine's first choice leaves what that set (`settleWork_unclaimed`). -/
theorem startSequenceRuns : Obligations.StartSequenceRuns := by
  refine ⟨?_, ?_⟩
  · intro s a v carries free read result
    have taken : result = .next (startReadDone v free a) := exec_startRead v carries
    rw [taken]
    refine ⟨fun hdr => ?_, fun hdr same => ?_, fun hdr other => ?_, fun hdr => ?_, fun hdr => ?_, fun hdr => ?_,
      fun hdr => ?_, fun hdr => ?_⟩
    · rw [startReadDone, hdr]
      rfl
    · rw [startReadDone, hdr]
      have kept : startTake free 1 v = free := if_pos same
      rw [kept]
      rfl
    · rw [startReadDone, hdr]
      have raised : startTake free 1 v = free.faulted .notice .reclaimOverrun none none :=
        (if_neg other).trans (takeFault_class rfl free none none)
      rw [raised]
      rfl
    · rw [startReadDone, hdr]
      rfl
    · rw [startReadDone, hdr]
      rfl
    · rw [startReadDone, hdr]
      rfl
    · rw [startReadDone, hdr]
      rfl
    · rw [startReadDone, hdr]
      rfl
  · intro s a carries write result
    have taken : result = .next (startWriteDone { s with fsp.port := .free } a) := exec_startWrite carries
    rw [taken]
    refine ⟨fun hdr => ?_, fun hdr => ?_, fun hdr => ?_, fun hdr => ?_, fun hdr part service state claim => ?_⟩
    · rw [startWriteDone, hdr]
      rfl
    · rw [startWriteDone, hdr]
      rfl
    · rw [startWriteDone, hdr]
      rfl
    · rw [startWriteDone, hdr]
      rfl
    · have starts : startWriteDone { s with fsp.port := .free } a =
          settleWork ({ s with fsp.port := .free } : State).serving := by
        rw [startWriteDone, hdr, ← becomeActive_serving]
        exact if_pos part
      obtain ⟨ple, umt, serves, steady, force, mode, silence, noPath, path⟩ :=
        serving_frame (s := { s with fsp.port := .free }) service
      have free : ({ s with fsp.port := .free } : State).serving.ple.claim = .none := (congrArg Ple.claim ple).trans claim
      obtain ⟨swc, pcf, records⟩ := settleWork_unclaimed free
      have meters := settleWork_umt ({ s with fsp.port := .free } : State).serving
      have named : ({ s with fsp.port := .free } : State).startService = s.startService := rfl
      rw [named] at serves noPath path
      refine ⟨_, congrArg _ starts, ?_, meters.trans umt, fun p => (records p).trans (silence p), ?_, ?_, ?_, ?_, ?_, ?_⟩
      · rw [pcf]
        by_cases none : s.startService = none
        · rw [noPath none]
        · rw [path none]
      · rw [swc, steady]
        exact state
      · rw [swc, force]
      · rw [swc, mode]
      · rw [swc, serves, startService_health]
      · intro none
        rw [swc, serves] at none
        exact pcf.trans (noPath none)
      · intro some
        rw [swc, serves] at some
        exact pcf.trans (path some)

end Sys2Proof.Machine

/-! SUPPORT. The side lines: the debounce table (R97, R98) and the cause that arrives while a path is DOWN (R102). -/

namespace Sys2Proof.Machine

/-! ### A cause by the health of its path (R98, R100, R102) -/

section
variable {s : State} {p : Path}

theorem applyCause_down (cause : DownCause) (down : (s.pathRec p).health = .down) :
    applyCause s p cause = causeWhileDown s p cause := by
  unfold applyCause
  rw [down]

theorem applyCause_live (cause : DownCause) (live : (s.pathRec p).health = .trial ∨ (s.pathRec p).health = .up) :
    applyCause s p cause = downEvent s p cause := by
  unfold applyCause
  rcases live with trial | up
  · rw [trial]
  · rw [up]

theorem applyCause_gone (cause : DownCause) (gone : (s.pathRec p).health = .off ∨ (s.pathRec p).health = .failed) :
    applyCause s p cause = s := by
  unfold applyCause
  rcases gone with off | failed
  · rw [off]
  · rw [failed]

end

/-- A record after a cause of a grade that arrived in DOWN (R102). -/
def PathRecord.graded (r : PathRecord) (g : Nat) (cause : DownCause) : PathRecord :=
  if r.grade ≤ g then { r with grade := g, cause := cause } else r

theorem causeWhileDown_graded (s : State) (p : Path) (cause : DownCause) :
    causeWhileDown s p cause = setRec s p ((s.pathRec p).graded (causeGrade cause) cause) := by
  unfold causeWhileDown PathRecord.graded
  by_cases outranks : (s.pathRec p).grade ≤ causeGrade cause
  · rw [if_pos outranks, if_pos outranks]
  · rw [if_neg outranks, if_neg outranks, setRec_pathRec]

theorem applyCause_graded {s : State} {p : Path} (cause : DownCause) (down : (s.pathRec p).health = .down) :
    applyCause s p cause = setRec s p ((s.pathRec p).graded (causeGrade cause) cause) :=
  (applyCause_down cause down).trans (causeWhileDown_graded s p cause)

/-- The grades of the down causes (R91). -/
theorem causeGrade_of_mem {cause : DownCause} {g : Nat} (h : (cause, g) ∈ [(DownCause.stall, 1), (.silence, 2), (.light, 3),
    (.detach, 3), (.powerCycle, 3), (.terminalIndex, 3)]) : causeGrade cause = g := by
  simp only [List.mem_cons, Prod.mk.injEq, List.not_mem_nil, or_false] at h
  rcases h with ⟨rfl, rfl⟩ | ⟨rfl, rfl⟩ | ⟨rfl, rfl⟩ | ⟨rfl, rfl⟩ | ⟨rfl, rfl⟩ | ⟨rfl, rfl⟩ <;> rfl

theorem causeGrade_lineCause (p : Path) : causeGrade (lineCause p) = 3 := by cases p <;> rfl

theorem lineCause_eq (p : Path) : (match p with | .fibre => DownCause.light | .radio => DownCause.detach) = lineCause p := by
  cases p <;> rfl

/-- A terminal index report on a path that is DOWN raises its fault and is graded (R100, R102). -/
theorem terminalIndex_down {s : State} {p : Path} (down : (s.pathRec p).health = .down) : terminalIndex s p =
    setRec (s.faulted .path .terminalIndex (some p) none) p ((s.pathRec p).graded 3 .terminalIndex) :=
  (terminalIndex_faulted s p).trans (applyCause_graded .terminalIndex down)

/-! ### The bad confirmation and its timer (R98) -/

theorem badConfirm_eq (s : State) (p : Path) :
    badConfirm s p = applyCause (setRec s p { s.pathRec p with line := .bad }) p (lineCause p) := rfl

theorem badConfirm_down {s : State} {p : Path} (down : (s.pathRec p).health = .down) : badConfirm s p =
    setRec s p (({ s.pathRec p with line := .bad } : PathRecord).graded 3 (lineCause p)) := by
  have still : ((setRec s p { s.pathRec p with line := .bad }).pathRec p).health = .down :=
    (congrArg PathRecord.health (pathRec_setRec_same s p _)).trans down
  rw [badConfirm_eq, applyCause_graded _ still, causeGrade_lineCause, pathRec_setRec_same, setRec_setRec]

theorem confirmRuns_iff (s : State) (p : Path) : s.confirmRuns p = true ↔ ∃ n, (s.pathRec p).line = .falling n := by
  unfold State.confirmRuns
  cases (s.pathRec p).line <;> simp

theorem exec_confirmTimerExpiry_running {s : State} {p : Path} (rstn : s.rstn = true)
    (falling : ∃ n, (s.pathRec p).line = .falling n) :
    exec (.confirmTimerExpiry p) s = .next (settleWork (badConfirm s p)) :=
  congrArg _ (expiry_running (fun t => badConfirm t p) rstn ((confirmRuns_iff s p).mpr falling))

theorem exec_confirmTimerExpiry_stopped {s : State} {p : Path} (stopped : ∀ n, (s.pathRec p).line ≠ .falling n) :
    exec (.confirmTimerExpiry p) s = .next s := by
  refine congrArg _ (expiry_stopped (fun t => badConfirm t p) (eq_false_of_ne_true fun runs => ?_))
  obtain ⟨n, falling⟩ := (confirmRuns_iff s p).mp runs
  exact stopped n falling

/-! ### A line's move (R98) -/

section
variable {s : State} {p : Path}

/-- A line that falls from GOOD: its confirm timer starts, and a confirm time of 0 confirms at once. -/
theorem lineFalls_good (good : (s.pathRec p).line = .good) : lineFalls s p =
    if s.sdc.settings.timing.confirm.get p = 0 then
      applyCause (setRec s p { s.pathRec p with line := .bad }) p (lineCause p)
    else setRec s p { s.pathRec p with line := .falling 0 } := by
  have due : (setLine s p (.falling 0)).confirmDue p = true ↔ s.sdc.settings.timing.confirm.get p = 0 := by
    have reached : (setLine s p (.falling 0)).confirmDue p =
        decide (s.sdc.settings.timing.confirm.get p * 1024 ≤ 0) := by
      unfold State.confirmDue setLine
      rw [pathRec_setRec_same]
      rfl
    rw [reached, decide_eq_true_iff]
    omega
  have confirmed : badConfirm (setLine s p (.falling 0)) p =
      applyCause (setRec s p { s.pathRec p with line := .bad }) p (lineCause p) := by
    rw [badConfirm_eq, setLine, pathRec_setRec_same, setRec_setRec]
  unfold lineFalls
  simp only [good, due, confirmed]
  rfl

theorem lineFalls_else (other : (s.pathRec p).line ≠ .good) : lineFalls s p = s := by
  unfold lineFalls
  split
  next good => exact absurd good other
  next => rfl
  next => rfl

theorem lineRises_good (good : (s.pathRec p).line = .good) : lineRises s p = s := by
  unfold lineRises
  rw [good]

theorem lineRises_falling (falling : ∃ n, (s.pathRec p).line = .falling n) :
    lineRises s p = setRec s p { s.pathRec p with line := .good } := by
  obtain ⟨n, falling⟩ := falling
  unfold lineRises
  rw [falling]
  rfl

theorem lineRises_bad (bad : (s.pathRec p).line = .bad) :
    lineRises s p = enterTrial (setRec s p { s.pathRec p with line := .good }) p := by
  unfold lineRises
  rw [bad]
  rfl

theorem mayTry_iff (s : State) (p : Path) : s.mayTry p = true ↔ (p = .radio → s.pmn.power.phase = .powered) := by
  cases p
  · exact iff_of_true rfl (nofun)
  · exact ⟨fun may _ => of_decide_eq_true may, fun powered => decide_eq_true (powered rfl)⟩

/-- A path that may try enters TRIAL with its counts cleared (R97). -/
theorem enterTrial_tries (down : (s.pathRec p).health = .down) (may : p = .radio → s.pmn.power.phase = .powered) :
    enterTrial s p = setRec s p
      { s.pathRec p with
        health := .trial, trial := 0, silence := 0
        trials := if (s.pathRec p).trials < 65535 then (s.pathRec p).trials + 1 else 65535 } :=
  if_pos ⟨down, (mayTry_iff s p).mpr may⟩

theorem enterTrial_stays (stays : (s.pathRec p).health ≠ .down ∨ (p = .radio ∧ s.pmn.power.phase ≠ .powered)) :
    enterTrial s p = s := by
  refine if_neg fun ⟨down, may⟩ => ?_
  rcases stays with live | ⟨radio, unpowered⟩
  · exact live down
  · exact unpowered ((mayTry_iff s p).mp may radio)

theorem exec_lineChange_same {b : Bool} (same : s.lines.level p = b) : exec (.lineChange p b) s = .next s :=
  congrArg _ (if_pos same)

theorem exec_lineChange_reset {b : Bool} (new : s.lines.level p ≠ b) (rstn : s.rstn = false) :
    exec (.lineChange p b) s = .next { s with lines := s.lines.setLevel p b } := by
  refine congrArg _ ((if_neg new).trans (if_neg fun high => ?_))
  exact Bool.false_ne_true (rstn.symm.trans high)

/-- A line level that is new, with RSTN high: the debounce by its direction, and the work it causes. -/
theorem exec_lineChange_new {b : Bool} {t : State} (rstn : s.rstn = true) (new : s.lines.level p ≠ b)
    (h : (if b then lineRises { s with lines := s.lines.setLevel p b } p
      else lineFalls { s with lines := s.lines.setLevel p b } p) = t) :
    exec (.lineChange p b) s = .next (settleWork t) := by
  have moved : moveLine s p b = settleWork _ := (if_neg new).trans (if_pos rstn)
  rw [← h, ← moved]
  rfl

end

/-- Settles O43: the level that is present and the stopped timer are no event (log 3); a new level is `lineFalls` or
`lineRises` by the state the debounce is in. -/
theorem lineDebounceTable : Obligations.LineDebounceTable := by
  intro s p moved r cause confirmTime
  have named : cause = lineCause p := lineCause_eq p
  rw [named]
  refine ⟨fun b same => exec_lineChange_same same, fun b new rstn => exec_lineChange_reset new rstn, fun rstn high => ?_,
    fun rstn low => ?_, exec_confirmTimerExpiry_running, exec_confirmTimerExpiry_stopped⟩
  · have new : s.lines.level p ≠ false := fun low => Bool.false_ne_true (low.symm.trans high)
    refine ⟨fun other => exec_lineChange_new rstn new ?_, fun good waits => exec_lineChange_new rstn new ?_,
      fun good now => exec_lineChange_new rstn new ?_⟩
    · exact lineFalls_else (s := moved false) other
    · exact (lineFalls_good (s := moved false) good).trans (if_neg waits)
    · exact (lineFalls_good (s := moved false) good).trans (if_pos now)
  · have new : s.lines.level p ≠ true := fun high => Bool.false_ne_true (low.symm.trans high)
    have record : (setRec (moved true) p { r with line := .good }).pathRec p = { r with line := .good } :=
      pathRec_setRec_same _ p _
    refine ⟨fun good => exec_lineChange_new rstn new ?_, fun falling => exec_lineChange_new rstn new ?_,
      fun bad down may => exec_lineChange_new rstn new ?_, fun bad stays => exec_lineChange_new rstn new ?_⟩
    · exact lineRises_good (s := moved true) good
    · exact lineRises_falling (s := moved true) falling
    · refine (lineRises_bad (s := moved true) bad).trans 
        ((enterTrial_tries (s := setRec (moved true) p { r with line := .good }) ?_ may).trans ?_)
      · exact (congrArg PathRecord.health record).trans down
      · rw [record, setRec_setRec]
    · refine (lineRises_bad (s := moved true) bad).trans (enterTrial_stays (stays.imp_left fun live down => live ?_))
      exact (congrArg PathRecord.health record).symm.trans down

theorem zero_lt_sub_toNat {v r : Word} (moves : v ≠ r) : 0 < (v - r).toNat := by
  have apart : v.toNat ≠ r.toNat := fun same => moves (BitVec.eq_of_toNat_eq same)
  have below := v.isLt
  have within := r.isLt
  rw [BitVec.toNat_sub]
  omega

/-- Settles O44: a full receive ring leaves its producer no place to go and an empty transmit ring its consumer none, so each
reports a terminal index (`terminalIndex_down`). -/
theorem causeWhileDownIsGraded : Obligations.CauseWhileDownIsGraded := by
  intro s p down graded line bad
  have named : line = lineCause p := lineCause_eq p
  rw [named]
  refine ⟨fun rstn falling => ?_, fun v full moves => ?_, fun v empty moves => ?_, fun cause g known => ?_⟩
  · rw [exec_confirmTimerExpiry_running rstn falling, badConfirm_down down]
    rfl
  · have beyond : ((s.rxRecs p).consumer + BitVec.ofNat 16 (s.rxSize p) - (s.rxRecs p).producer).toNat <
        (v - (s.rxRecs p).producer).toNat := by
      rw [← full, BitVec.sub_self]
      exact zero_lt_sub_toNat moves
    rw [takeRxProducer_beyond beyond, terminalIndex_down down]
    rfl
  · have beyond : ((s.ring p).producer - (s.ring p).consumer).toNat < (v - (s.ring p).consumer).toNat := by
      rw [← empty, BitVec.sub_self]
      exact zero_lt_sub_toNat moves
    rw [takeTxConsumer_beyond beyond, terminalIndex_down down]
    rfl
  · rw [applyCause_graded cause down, causeGrade_of_mem known]
    rfl

end Sys2Proof.Machine

/-! SUPPORT. The heartbeat (R94 to R97): the judgement of a path, and what its becoming UP brings (R92, R108, R121, R122). -/

namespace Sys2Proof.Machine

/-! ### The judgement of a path (R94 to R97) -/

/-- Silence detection is in force (R95). -/
abbrev State.silenceCounts (s : State) (p : Path) : Prop :=
  s.pcf.part = .active ∧ s.sdc.settings.timing.silence.get p ≠ 0

theorem silenceInForce_iff (s : State) (p : Path) : s.silenceInForce p = true ↔ s.silenceCounts p := by
  simp only [State.silenceInForce, State.silenceCounts, Bool.and_eq_true, decide_eq_true_eq]

theorem trialLength_eq (s : State) (p : Path) : s.trialLength p =
    match p with
    | .radio => s.sdc.settings.timing.radioTrial
    | .fibre =>
      if (s.pathRec p).grade = 1 then s.sdc.settings.timing.trial1
      else if (s.pathRec p).grade = 2 then s.sdc.settings.timing.trial2 else s.sdc.settings.timing.trial3 := by
  cases p with
  | radio => rfl
  | fibre =>
    unfold State.trialLength
    simp only
    split
    next grade => rw [grade, if_pos rfl]
    next grade => rw [grade, if_neg (by decide), if_pos rfl]
    next one two => rw [if_neg one, if_neg two]

section
variable {s : State} {p : Path}

theorem judge_gone (gone : (s.pathRec p).health = .off ∨ (s.pathRec p).health = .failed) : judge s p = s := by
  unfold judge
  rcases gone with off | failed
  · rw [off]
  · rw [failed]

theorem judge_up (up : (s.pathRec p).health = .up) : judge s p = judgeSilence s p := by
  unfold judge
  rw [up]

theorem judge_trial (trial : (s.pathRec p).health = .trial) : judge s p = judgeTrial s p := by
  unfold judge
  rw [trial]

theorem judge_down (down : (s.pathRec p).health = .down) :
    judge s p = if (s.pathRec p).line = .good then enterTrial s p else s := by
  unfold judge
  rw [down]

theorem judgeSilence_idle (idle : ¬ s.silenceCounts p) : judgeSilence s p = s :=
  if_neg fun counts => idle ((silenceInForce_iff s p).mp counts)

theorem judgeSilence_heard (counts : s.silenceCounts p) (mark : (s.pathRec p).mark = true) :
    judgeSilence s p = setRec s p { s.pathRec p with silence := 0 } :=
  (if_pos ((silenceInForce_iff s p).mpr counts)).trans (if_pos mark)

theorem judgeSilence_missed (counts : s.silenceCounts p) (mark : (s.pathRec p).mark = false) : judgeSilence s p =
    let missed := if (s.pathRec p).silence < 255 then (s.pathRec p).silence + 1 else 255
    if s.sdc.settings.timing.silence.get p ≤ missed then
      downEvent (setRec s p { s.pathRec p with silence := missed }) p .silence
    else setRec s p { s.pathRec p with silence := missed } :=
  (if_pos ((silenceInForce_iff s p).mpr counts)).trans (if_neg (Bool.eq_false_iff.mp mark))

/-- The trial count after an interval: 0 where nothing was heard and silence detection is in force (R96). -/
def State.trialCounted (s : State) (p : Path) : Nat :=
  if (s.pathRec p).mark = false ∧ s.silenceCounts p then 0
  else if (s.pathRec p).trial < 255 then (s.pathRec p).trial + 1 else 255

theorem judgeTrial_falling (falling : ∃ n, (s.pathRec p).line = .falling n) : judgeTrial s p = s := by
  obtain ⟨n, falling⟩ := falling
  unfold judgeTrial
  simp only [falling]

theorem judgeTrial_good (good : (s.pathRec p).line = .good) : judgeTrial s p =
    if s.trialLength p ≤ s.trialCounted p then becomeUp (setRec s p { s.pathRec p with trial := s.trialCounted p }) p
    else setRec s p { s.pathRec p with trial := s.trialCounted p } := by
  have counted : (if (s.pathRec p).mark = false ∧ s.silenceInForce p = true then 0
      else satInc 255 (s.pathRec p).trial) = s.trialCounted p :=
    if_congr (and_congr_right' (silenceInForce_iff s p)) rfl rfl
  unfold judgeTrial
  simp only [good, counted]

end

/-! ### A path that becomes UP (R92, R96, R108, R121, R122) -/

/-- The arrival a service of NONE waits for may be made (R121). -/
def State.awaitsArrival (s : State) : Prop := s.pcf.part = .active ∧ s.swc.service = none ∧ s.swc.state = .steady

theorem arrivalTrigger_unawaited {s : State} (h : ¬ s.awaitsArrival) : arrivalTrigger s = s := if_neg h

theorem arrivalTrigger_fibre {s : State} (h : s.awaitsArrival) (up : (s.pathRec .fibre).health = .up) :
    arrivalTrigger s = startMigration s (some .fibre) .arrival :=
  (if_pos h).trans (if_pos ((isUp_iff s .fibre).mpr up))

theorem arrivalTrigger_radio {s : State} (h : s.awaitsArrival) (down : (s.pathRec .fibre).health ≠ .up)
    (up : (s.pathRec .radio).health = .up) : arrivalTrigger s = startMigration s (some .radio) .arrival :=
  (if_pos h).trans ((if_neg fun fibre => down ((isUp_iff s .fibre).mp fibre)).trans
    (if_pos ((isUp_iff s .radio).mpr up)))

/-- A switch that migrates is not tested for failback. -/
theorem failbackTest_startMigration (s : State) (target : Option Path) (kind : MigrationKind) :
    failbackTest (startMigration s target kind) = startMigration s target kind := by
  refine failbackTest_idle fun ⟨_, steady, _⟩ => ?_
  obtain ⟨migrating, -⟩ := migrationStart s target kind
  exact nomatch migrating.symm.trans steady

/-- The record of a path that has become UP. -/
def State.risen (s : State) (p : Path) : State :=
  setRec s p { s.pathRec p with health := .up, trial := 0, silence := 0 }

theorem becomeUp_fibre (s : State) :
    becomeUp s .fibre = failbackTest (arrivalTrigger (evalStandby (s.risen .fibre))) := rfl

theorem becomeUp_radio (s : State) :
    becomeUp s .radio = arrivalTrigger { s.risen .radio with pmn.power.attach := none, pmn.power.retry := 0 } := rfl

theorem evalStandby_awaits (s : State) : (evalStandby s).awaitsArrival ↔ s.awaitsArrival := by
  obtain ⟨swc, pcf⟩ := evalStandby_outside s
  unfold State.awaitsArrival
  rw [swc, pcf]

theorem becomeUp_fibre_arrives {s : State} (h : s.awaitsArrival) :
    becomeUp s .fibre = startMigration (evalStandby (s.risen .fibre)) (some .fibre) .arrival := by
  have awaits : (evalStandby (s.risen .fibre)).awaitsArrival := (evalStandby_awaits _).mpr h
  have up : ((evalStandby (s.risen .fibre)).pathRec .fibre).health = .up :=
    congrArg PathRecord.health (evalStandby_fibre (s.risen .fibre))
  rw [becomeUp_fibre, arrivalTrigger_fibre awaits up, failbackTest_startMigration]

theorem becomeUp_fibre_stays {s : State} (h : ¬ s.awaitsArrival) :
    becomeUp s .fibre = failbackTest (evalStandby (s.risen .fibre)) := by
  have unawaited : ¬ (evalStandby (s.risen .fibre)).awaitsArrival := fun awaits =>
    h ((evalStandby_awaits (s.risen .fibre)).mp awaits)
  rw [becomeUp_fibre, arrivalTrigger_unawaited unawaited]

theorem becomeUp_radio_arrives {s : State} (h : s.awaitsArrival) : becomeUp s .radio =
    startMigration { s.risen .radio with pmn.power.attach := none, pmn.power.retry := 0 }
      (some (if (s.pathRec .fibre).health = .up then .fibre else .radio)) .arrival := by
  rw [becomeUp_radio]
  by_cases up : (s.pathRec .fibre).health = .up
  · rw [if_pos up]
    exact arrivalTrigger_fibre h up
  · rw [if_neg up]
    exact arrivalTrigger_radio h up rfl

theorem becomeUp_radio_stays {s : State} (h : ¬ s.awaitsArrival) :
    becomeUp s .radio = { s.risen .radio with pmn.power.attach := none, pmn.power.retry := 0 } :=
  (becomeUp_radio s).trans (arrivalTrigger_unawaited h)

/-! ### The end of an interval (R94) -/

/-- The marks cleared and the next interval begun. -/
def State.beatEnded (s : State) : State :=
  { s with
    pmn.recs := ⟨{ s.pathRec .fibre with mark := false }, { s.pathRec .radio with mark := false }⟩
    pmn.beat := 0
    pmn.beatLen := s.sdc.settings.timing.heartbeat }

theorem heartbeatEnd_ended (s : State) :
    heartbeatEnd s = (judge (settleWork (judge s .fibre)) .radio).beatEnded := by
  unfold heartbeatEnd
  generalize judge (settleWork (judge s .fibre)) .radio = judged
  rfl

theorem judge_settings (s : State) (p : Path) : (judge s p).sdc.settings = s.sdc.settings :=
  (EngineKept.of_lasting (judge_lasting s p)).settings

/-- Settles O45: `heartbeatEnd` by definition, the judgements by the state of the path, and an arrival by `becomeUp_fibre_arrives`
and `becomeUp_radio_arrives`. -/
theorem heartbeatJudgesPaths : Obligations.HeartbeatJudgesPaths := by
  refine ⟨fun s rstn => ?_, fun s rstn => ?_, ?_⟩
  · have settings : (judge (settleWork (judge s .fibre)) .radio).sdc.settings = s.sdc.settings := by
      rw [judge_settings, (settleWork_kept _).settings, judge_settings]
    have ends : exec .heartbeatIntervalEnd s = .next (expiry s true heartbeatEnd) := rfl
    rw [expiry_running heartbeatEnd rstn rfl, heartbeatEnd_ended] at ends
    generalize judge (settleWork (judge s .fibre)) .radio = judged at settings ends
    refine ⟨judged.beatEnded, ends, rfl, congrArg (fun v : Settings => v.timing.heartbeat) settings, fun p => ?_, rfl, rfl⟩
    cases p <;> rfl
  · refine congrArg _ (if_neg fun high => ?_)
    rw [rstn] at high
    cases high
  · intro s p r limit inForce missed needed counted
    have required : needed = s.trialLength p := (trialLength_eq s p).symm
    rw [required]
    refine ⟨judge_gone, fun up idle => (judge_up up).trans (judgeSilence_idle idle),
      fun up counts mark => (judge_up up).trans (judgeSilence_heard counts mark),
      fun up counts mark below => (judge_up up).trans ((judgeSilence_missed counts mark).trans (if_neg (Nat.not_le.mpr below))),
      fun up counts mark reached => (judge_up up).trans ((judgeSilence_missed counts mark).trans (if_pos reached)),
      fun trial falling => (judge_trial trial).trans (judgeTrial_falling falling), ?_, ?_,
      fun down other => (judge_down down).trans (if_neg other), ?_, ?_, ?_⟩
    · intro trial good below
      exact (judge_trial trial).trans ((judgeTrial_good good).trans (if_neg (Nat.not_le.mpr below)))
    · intro trial good reached
      exact (judge_trial trial).trans ((judgeTrial_good good).trans (if_pos reached))
    · intro down good radio unpowered
      exact (judge_down down).trans ((if_pos good).trans (enterTrial_stays (.inr ⟨radio, unpowered⟩)))
    · intro down good may
      exact (judge_down down).trans ((if_pos good).trans (enterTrial_tries down may))
    · intro up ready arrives
      cases p with
      | fibre => exact ⟨becomeUp_fibre_arrives, becomeUp_fibre_stays⟩
      | radio =>
        refine ⟨fun awaits => ?_, becomeUp_radio_stays⟩
        rw [becomeUp_radio_arrives awaits]
        simp only [reduceCtorEq, false_or]
        rfl

end Sys2Proof.Machine

/-! SUPPORT. A down event (R92, R101, R103, R108): the record of the path, the flap list, and the failover of a serving path
(R120, R127, R133). -/

namespace Sys2Proof.Machine

/-! ### What a started migration does to the path monitor -/

theorem startMigration_pmn (s : State) (target : Option Path) (kind : MigrationKind) :
    (startMigration s target kind).pmn = if s.swc.service = target then s.pmn else s.monitorServing target := by
  obtain ⟨-, -, pmn, -⟩ := migrationBegun_frame s target kind
  obtain ⟨-, rest, -⟩ := claimEngine_claims (s.migrationBegun target kind)
  rw [startMigration_begun]
  exact ((congrArg State.pmn rest).trans rfl).trans pmn

/-- The record of a path that is DOWN is as it was, whatever the service path becomes. -/
theorem monitorServing_down {s : State} {p : Path} (target : Option Path) (down : (s.pathRec p).health = .down) :
    (s.monitorServing target).recs.get p = s.pathRec p := by
  unfold State.monitorServing
  split
  · cases p with
    | fibre => rfl
    | radio =>
      have same : { s.pathRec .radio with health := .down } = s.pathRec .radio := by rw [← down]
      exact same
  · rfl

theorem monitorServing_flaps (s : State) (target : Option Path) : (s.monitorServing target).flaps = s.pmn.flaps := by
  unfold State.monitorServing
  split <;> rfl

theorem monitorServing_attach {s : State} (target : Option Path) (powered : s.pmn.power.phase = .powered) :
    (s.monitorServing target).power.attach = s.pmn.power.attach := by
  unfold State.monitorServing
  rw [if_neg (by rw [powered]; nofun)]

/-! ### A path that leaves UP (R120, R123, R133) -/

theorem failoverTarget_eq (s : State) (p : Path) :
    s.failoverTarget p = if (s.pathRec (otherPath p)).health = .up then some (otherPath p) else none :=
  if_congr (isUp_iff s (otherPath p)) rfl rfl

theorem failoverTarget_other (s : State) (p : Path) : some p ≠ s.failoverTarget p := by
  rw [failoverTarget_eq]
  cases p <;> split <;> nofun

/-- The switch released from its force and from its wait or its list, as a failover begins. -/
def State.failing (s : State) : State :=
  if s.swc.state = .migrating then { s with swc.force := none, swc.list := [] }
  else { s with swc.force := none, swc.wait := none, swc.expired := false }

section
variable {s : State} {p : Path}

theorem pathLeftUp_serving (active : s.pcf.part = .active) (serves : s.swc.service = some p) :
    pathLeftUp s p = startMigration s.failing (s.failoverTarget p) .failover := by
  unfold State.failing
  by_cases migrating : s.swc.state = .migrating
  · rw [if_pos migrating]
    exact (if_pos active).trans ((if_pos serves).trans (if_pos migrating))
  · rw [if_neg migrating]
    exact (if_pos active).trans ((if_pos serves).trans (if_neg migrating))

theorem pathLeftUp_waiting (active : s.pcf.part = .active) (other : s.swc.service ≠ some p)
    (waits : s.swc.state = .waiting ∧ p = .fibre) : pathLeftUp s p = endWait s :=
  (if_pos active).trans ((if_neg other).trans (if_pos waits))

theorem pathLeftUp_unconcerned (h : ¬ (s.pcf.part = .active ∧ s.swc.service = some p))
    (waits : ¬ (s.pcf.part = .active ∧ s.swc.state = .waiting ∧ p = .fibre)) : pathLeftUp s p = s := by
  by_cases active : s.pcf.part = .active
  · exact (if_pos active).trans ((if_neg fun serves => h ⟨active, serves⟩).trans (if_neg fun w => waits ⟨active, w⟩))
  · exact if_neg active

end

/-- What the report that a path in DOWN has left UP does, and what it leaves. -/
structure LeavesUp (s : State) (p : Path) (t : State) : Prop where
  record : t.pathRec p = s.pathRec p
  flaps : t.pmn.flaps = s.pmn.flaps
  attach : s.pmn.power.phase = .powered → t.pmn.power.attach = s.pmn.power.attach
  mode : t.swc.mode = s.swc.mode
  fails : s.pcf.part = .active → s.swc.service = some p →
    t.swc.state = .migrating ∧ t.swc.kind = some .failover ∧ t.swc.force = none ∧ t.ple.claim = .pending ∧
      t.swc.target = some t.swc.service ∧ t.swc.service = s.failoverTarget p ∧
      (t.swc.service = none → t.pcf = (s.faulted .path .noPath none none).pcf ∧ t.sdc = (s.faulted .path .noPath none none).sdc) ∧
      (t.swc.service ≠ none → t.pcf = s.pcf ∧ t.sdc = s.sdc)
  stays : ¬ (s.pcf.part = .active ∧ s.swc.service = some p) →
    t.pcf = s.pcf ∧ t.sdc = s.sdc ∧ t.swc.service = s.swc.service ∧ t.swc.force = s.swc.force
  waits : ¬ (s.pcf.part = .active ∧ s.swc.service = some p) → s.pcf.part = .active → s.swc.state = .waiting → p = .fibre →
    t.swc.state = .steady
  state : ¬ (s.pcf.part = .active ∧ s.swc.service = some p) → ¬ (s.pcf.part = .active ∧ s.swc.state = .waiting ∧ p = .fibre) →
    t.swc.state = s.swc.state

/-- The failover itself, from a switch already released. -/
theorem startMigration_leavesUp {s : State} {p : Path} (down : (s.pathRec p).health = .down) (active : s.pcf.part = .active)
    (serves : s.swc.service = some p) : LeavesUp s p (startMigration s.failing (s.failoverTarget p) .failover) := by
  have released : s.failing = { s with swc := s.failing.swc } ∧ s.failing.swc.service = some p ∧ s.failing.swc.force = none ∧
      s.failing.swc.mode = s.swc.mode := by
    unfold State.failing
    split <;> exact ⟨rfl, serves, rfl, rfl⟩
  generalize s.failing = u at released
  obtain ⟨frame, service, force, mode⟩ := released
  have record : u.pathRec p = s.pathRec p := by
    rw [frame]
    rfl
  have pmn := startMigration_pmn u (s.failoverTarget p) .failover
  rw [if_neg (service ▸ failoverTarget_other s p)] at pmn
  obtain ⟨state, target, kind, toward, claim, -, kept, modeKept, -, -, -, -, noPath, path, -⟩ :=
    migrationStart u (s.failoverTarget p) .failover
  refine ⟨?_, ?_, fun powered => ?_, modeKept.trans mode, fun _ _ => ?_, fun other => absurd ⟨active, serves⟩ other,
    fun other => absurd ⟨active, serves⟩ other, fun other => absurd ⟨active, serves⟩ other⟩
  · refine (congrArg (fun m : Pmn => m.recs.get p) pmn).trans ((monitorServing_down _ ?_).trans record)
    exact (congrArg PathRecord.health record).trans down
  · refine (congrArg Pmn.flaps pmn).trans ((monitorServing_flaps _ _).trans ?_)
    rw [frame]
  · refine (congrArg (fun m : Pmn => m.power.attach) pmn).trans ((monitorServing_attach _ ?_).trans ?_)
    · rw [frame]
      exact powered
    · rw [frame]
  · refine ⟨state, kind, kept.trans force, claim, target.trans (congrArg some toward.symm), toward, fun none => ?_,
      fun some => ?_⟩
    · obtain ⟨-, -, pcf, sdc⟩ := noPath (toward.symm.trans none)
      have raised : (u.faulted .path .noPath .none .none).pcf = (s.faulted .path .noPath .none .none).pcf ∧
          (u.faulted .path .noPath .none .none).sdc = (s.faulted .path .noPath .none .none).sdc := by
        rw [frame]
        exact ⟨rfl, rfl⟩
      exact ⟨pcf.trans raised.1, sdc.trans raised.2⟩
    · obtain ⟨-, -, pcf, sdc⟩ := path fun none => some (toward.trans none)
      have same : u.pcf = s.pcf ∧ u.sdc = s.sdc := by
        rw [frame]
        exact ⟨rfl, rfl⟩
      exact ⟨pcf.trans same.1, sdc.trans same.2⟩

theorem pathLeftUp_leavesUp {s : State} {p : Path} (down : (s.pathRec p).health = .down) : LeavesUp s p (pathLeftUp s p) := by
  by_cases fails : s.pcf.part = .active ∧ s.swc.service = some p
  · obtain ⟨active, serves⟩ := fails
    rw [pathLeftUp_serving active serves]
    exact startMigration_leavesUp down active serves
  · have concerned (active : s.pcf.part = .active) (serves : s.swc.service = some p) : False := fails ⟨active, serves⟩
    by_cases waits : s.pcf.part = .active ∧ s.swc.state = .waiting ∧ p = .fibre
    · obtain ⟨active, waiting⟩ := waits
      rw [pathLeftUp_waiting active (concerned active) waiting]
      exact ⟨rfl, rfl, fun _ => rfl, rfl, fun a b => (concerned a b).elim, fun _ => ⟨rfl, rfl, rfl, rfl⟩, fun _ _ _ _ => rfl,
        fun _ other => absurd ⟨active, waiting⟩ other⟩
    · rw [pathLeftUp_unconcerned fails waits]
      exact ⟨rfl, rfl, fun _ => rfl, rfl, fun a b => (concerned a b).elim, fun _ => ⟨rfl, rfl, rfl, rfl⟩,
        fun _ active waiting fibre => absurd ⟨active, waiting, fibre⟩ waits, fun _ _ => rfl⟩

/-! ### The flap list (R103) -/

/-- The flap list with an entry of now, its oldest gone where it is full. -/
def State.flapsNow (s : State) : List (BitVec 32) :=
  (if s.pmn.flaps.length < 15 then s.pmn.flaps else s.pmn.flaps.tail) ++ [s.clock.uptime]

/-- The flap list reaches its limit. -/
abbrev State.flapsLimited (s : State) : Prop := s.sdc.settings.timing.flapLimit ≤ s.flapsNow.length

theorem flapAppend_eq (s : State) : flapAppend s =
    if s.flapsLimited then
      ({ s with pmn.flaps := s.flapsNow, swc.mode := .manual } : State).faulted .path .flapLimit (some .fibre) none
    else { s with pmn.flaps := s.flapsNow } := by
  unfold flapAppend
  simp only [takeFault_faulted, List.drop_one]
  rfl

/-! ### The report of a down event (R101) -/

/-- The path gone DOWN with its fault, the flap list and the standby condition of the fibre, the attach timer of the radio. -/
def downReport (s : State) (p : Path) (cause : DownCause) : State :=
  let down := (setRec s p ((s.pathRec p).goDown cause)).faulted .path .pathDown (some p) none
  match p with
  | .fibre => evalStandby (flapAppend down)
  | .radio =>
    if (s.pathRec .radio).health = .up ∧ s.pmn.power.phase = .powered then { down with pmn.power.attach := some 0 } else down

theorem downEvent_report (s : State) (p : Path) (cause : DownCause) : downEvent s p cause =
    if (s.pathRec p).health = .up then pathLeftUp (downReport s p cause) p else downReport s p cause := by
  have report : (let s1 := (setRec s p ((s.pathRec p).goDown cause)).faulted .path .pathDown (some p) none
      match p with
      | .fibre => evalStandby (flapAppend s1)
      | .radio =>
        if s.isUp p = true ∧ s1.pmn.power.phase = .powered then { s1 with pmn.power.attach := some 0 } else s1) =
      downReport s p cause := by
    cases p with
    | fibre => rfl
    | radio => exact if_congr (and_congr_left' (isUp_iff s .radio)) rfl rfl
  unfold downEvent
  simp only [takeFault_faulted, isUp_iff] at report ⊢
  rw [← report]
  rfl

/-- The path's fault, and FLAP_LIMIT after it where the fibre's list reaches its limit. -/
def State.downFaults (s : State) (p : Path) : State :=
  let down := s.faulted .path .pathDown (some p) none
  if p = .fibre ∧ s.flapsLimited then down.faulted .path .flapLimit (some .fibre) none else down

/-- What the standby condition does where the fibre is DOWN: it can only power the radio up. -/
theorem evalStandby_fibreDown {s : State} (down : (s.pathRec .fibre).health = .down) :
    let u := evalStandby s
    u = { s with pmn := u.pmn } ∧ u.pathRec .fibre = s.pathRec .fibre ∧ u.pmn.flaps = s.pmn.flaps ∧
      (((s.pathRec .radio).health = .up → s.pmn.power.phase = .powered) →
        ((u.pathRec .radio).health = .up ↔ (s.pathRec .radio).health = .up)) := by
  intro u
  have unmet : s.standbyCond = false :=
    Bool.eq_false_iff.mpr fun met => nomatch down.symm.trans (standbyCond_serves met).2
  have answered : u = if s.pmn.power.phase = .standby then powerUp s else s := evalStandby_unmet unmet
  by_cases phase : s.pmn.power.phase = .standby
  · rw [answered.trans (if_pos phase)]
    refine ⟨rfl, rfl, rfl, fun powered => ⟨nofun, fun up => ?_⟩⟩
    exact nomatch phase.symm.trans (powered up)
  · rw [answered.trans (if_neg phase)]
    exact ⟨rfl, rfl, rfl, fun _ => Iff.rfl⟩

/-- What the report of a down event has done before the switch hears of it. -/
structure DownReported (s : State) (p : Path) (cause : DownCause) (u : State) : Prop where
  frame : u =
    { s with
      pmn := u.pmn, pcf := (s.downFaults p).pcf, sdc := (s.downFaults p).sdc
      swc.mode := if p = .fibre ∧ s.flapsLimited then .manual else s.swc.mode }
  record : u.pathRec p = (s.pathRec p).goDown cause
  flaps : u.pmn.flaps = if p = .fibre then s.flapsNow else s.pmn.flaps
  attach : p = .radio → (s.pathRec p).health = .up → s.pmn.power.phase = .powered →
    u.pmn.power.attach = some 0 ∧ u.pmn.power.phase = .powered
  other : ((s.pathRec .radio).health = .up → s.pmn.power.phase = .powered) →
    ((u.pathRec (otherPath p)).health = .up ↔ (s.pathRec (otherPath p)).health = .up)

theorem downReport_fibre (s : State) (cause : DownCause) : DownReported s .fibre cause (downReport s .fibre cause) := by
  have listed : downReport s .fibre cause = evalStandby (if s.flapsLimited then
      ({ (setRec s .fibre ((s.pathRec .fibre).goDown cause)).faulted .path .pathDown (some .fibre) none with
        pmn.flaps := s.flapsNow, swc.mode := .manual } : State).faulted .path .flapLimit (some .fibre) none
      else { (setRec s .fibre ((s.pathRec .fibre).goDown cause)).faulted .path .pathDown (some .fibre) none with
        pmn.flaps := s.flapsNow }) := congrArg evalStandby (flapAppend_eq _)
  rw [listed]
  by_cases limited : s.flapsLimited
  · rw [if_pos limited]
    obtain ⟨frame, record, flaps, other⟩ := evalStandby_fibreDown (s := ({
      (setRec s .fibre ((s.pathRec .fibre).goDown cause)).faulted .path .pathDown (some .fibre) none with
      pmn.flaps := s.flapsNow, swc.mode := .manual } : State).faulted .path .flapLimit (some .fibre) none) rfl
    have faults : s.downFaults .fibre =
        (s.faulted .path .pathDown (some .fibre) none).faulted .path .flapLimit (some .fibre) none := if_pos ⟨rfl, limited⟩
    refine ⟨?_, record, flaps, nofun, other⟩
    rw [faults, if_pos ⟨rfl, limited⟩]
    exact frame.trans rfl
  · rw [if_neg limited]
    obtain ⟨frame, record, flaps, other⟩ := evalStandby_fibreDown (s := {
      (setRec s .fibre ((s.pathRec .fibre).goDown cause)).faulted .path .pathDown (some .fibre) none with
      pmn.flaps := s.flapsNow }) rfl
    have faults : s.downFaults .fibre = s.faulted .path .pathDown (some .fibre) none := if_neg fun h => limited h.2
    refine ⟨?_, record, flaps, nofun, other⟩
    rw [faults, if_neg fun h => limited h.2]
    exact frame.trans rfl

theorem downReport_radio (s : State) (cause : DownCause) : DownReported s .radio cause (downReport s .radio cause) := by
  have apart : ¬ (Path.radio = .fibre ∧ s.flapsLimited) := fun limited => nomatch limited.1
  have faults : s.downFaults .radio = s.faulted .path .pathDown (some .radio) none := by
    unfold State.downFaults
    simp only
    rw [if_neg apart]
  have mode : (if Path.radio = .fibre ∧ s.flapsLimited then .manual else s.swc.mode) = s.swc.mode := if_neg apart
  have report : downReport s .radio cause = if (s.pathRec .radio).health = .up ∧ s.pmn.power.phase = .powered then
      { (setRec s .radio ((s.pathRec .radio).goDown cause)).faulted .path .pathDown (some .radio) none with
        pmn.power.attach := some 0 }
      else (setRec s .radio ((s.pathRec .radio).goDown cause)).faulted .path .pathDown (some .radio) none := rfl
  by_cases leaves : (s.pathRec .radio).health = .up ∧ s.pmn.power.phase = .powered
  · rw [report, if_pos leaves]
    refine ⟨?_, rfl, rfl, fun _ _ powered => ⟨rfl, powered⟩, fun _ => Iff.rfl⟩
    rw [faults, mode]
    rfl
  · rw [report, if_neg leaves]
    refine ⟨?_, rfl, rfl, fun _ up powered => absurd ⟨up, powered⟩ leaves, fun _ => Iff.rfl⟩
    rw [faults, mode]
    rfl

theorem downReport_reported (s : State) (p : Path) (cause : DownCause) : DownReported s p cause (downReport s p cause) := by
  cases p
  · exact downReport_fibre s cause
  · exact downReport_radio s cause

end Sys2Proof.Machine

/-! SUPPORT. The down event as a whole, and the stall timer's expiry (R99, R101). -/

namespace Sys2Proof.Machine

/-- What a fault sets depends on the fault records, the alerts and the clock only. -/
theorem faulted_congr {s t : State} (pcf : s.pcf = t.pcf) (sdc : s.sdc = t.sdc) (clock : s.clock = t.clock) (cls : FaultClass)
    (cause : FaultCause) (path : Option Path) (slot : Option Nat) :
    (s.faulted cls cause path slot).pcf = (t.faulted cls cause path slot).pcf ∧
      (s.faulted cls cause path slot).sdc = (t.faulted cls cause path slot).sdc := by
  unfold State.faulted
  simp only [pcf, sdc, clock, and_self]

theorem downFaults_clock (s : State) (p : Path) : (s.downFaults p).clock = s.clock := by
  unfold State.downFaults
  simp only
  split <;> rfl

/-- A down event's state against the state before it. -/
structure WentDown (s : State) (p : Path) (cause : DownCause) (t : State) : Prop where
  record : t.pathRec p = (s.pathRec p).goDown cause
  flaps : t.pmn.flaps = if p = .fibre then s.flapsNow else s.pmn.flaps
  attach : p = .radio → (s.pathRec p).health = .up → s.pmn.power.phase = .powered → t.pmn.power.attach = some 0
  mode : t.swc.mode = if p = .fibre ∧ s.flapsLimited then .manual else s.swc.mode
  fails : s.pcf.part = .active → (s.pathRec p).health = .up → s.swc.service = some p →
    t.swc.state = .migrating ∧ t.swc.kind = some .failover ∧ t.swc.force = none ∧ t.ple.claim = .pending ∧
      t.swc.target = some t.swc.service ∧
      (((s.pathRec .radio).health = .up → s.pmn.power.phase = .powered) →
        t.swc.service = if (s.pathRec (otherPath p)).health = .up then some (otherPath p) else none) ∧
      (t.swc.service = none → t.pcf = ((s.downFaults p).faulted .path .noPath none none).pcf ∧
        t.sdc = ((s.downFaults p).faulted .path .noPath none none).sdc) ∧
      (t.swc.service ≠ none → t.pcf = (s.downFaults p).pcf ∧ t.sdc = (s.downFaults p).sdc)
  stays : ¬ (s.pcf.part = .active ∧ (s.pathRec p).health = .up ∧ s.swc.service = some p) →
    t.pcf = (s.downFaults p).pcf ∧ t.sdc = (s.downFaults p).sdc ∧ t.swc.service = s.swc.service ∧ t.swc.force = s.swc.force
  waits : ¬ (s.pcf.part = .active ∧ (s.pathRec p).health = .up ∧ s.swc.service = some p) → s.pcf.part = .active →
    (s.pathRec p).health = .up → p = .fibre → s.swc.state = .waiting → t.swc.state = .steady
  state : ¬ (s.pcf.part = .active ∧ (s.pathRec p).health = .up ∧ s.swc.service = some p) →
    ¬ (s.pcf.part = .active ∧ (s.pathRec p).health = .up ∧ p = .fibre ∧ s.swc.state = .waiting) →
    t.swc.state = s.swc.state

theorem downFaults_part (s : State) (p : Path) : (s.downFaults p).pcf.part = s.pcf.part := by
  unfold State.downFaults
  simp only
  split <;> rfl

theorem downEvent_wentDown (s : State) (p : Path) (cause : DownCause) : WentDown s p cause (downEvent s p cause) := by
  have reported := downReport_reported s p cause
  rw [downEvent_report]
  generalize downReport s p cause = u at reported
  obtain ⟨frame, record, flaps, attach, other⟩ := reported
  have faults : u.pcf = (s.downFaults p).pcf ∧ u.sdc = (s.downFaults p).sdc :=
    ⟨(congrArg State.pcf frame).trans rfl, (congrArg State.sdc frame).trans rfl⟩
  have part : u.pcf.part = s.pcf.part := (congrArg Pcf.part faults.1).trans (downFaults_part s p)
  have switch : u.swc = { s.swc with mode := if p = .fibre ∧ s.flapsLimited then .manual else s.swc.mode } :=
    (congrArg State.swc frame).trans rfl
  have service : u.swc.service = s.swc.service := (congrArg Swc.service switch).trans rfl
  have state : u.swc.state = s.swc.state := (congrArg Swc.state switch).trans rfl
  have force : u.swc.force = s.swc.force := (congrArg Swc.force switch).trans rfl
  have mode : u.swc.mode = if p = .fibre ∧ s.flapsLimited then .manual else s.swc.mode :=
    (congrArg Swc.mode switch).trans rfl
  have clock : u.clock = (s.downFaults p).clock := ((congrArg State.clock frame).trans rfl).trans (downFaults_clock s p).symm
  have raised := faulted_congr faults.1 faults.2 clock .path .noPath none none
  by_cases up : (s.pathRec p).health = .up
  · rw [if_pos up]
    obtain ⟨kept, list, timer, manual, fails, stays, waits, still⟩ :=
      pathLeftUp_leavesUp (s := u) (p := p) (congrArg PathRecord.health record)
    rw [part, service, state] at *
    refine ⟨kept.trans record, list.trans flaps, fun radio _ powered => ?_, manual.trans mode, fun active _ serves => ?_,
      fun other => ?_, fun other active _ fibre waiting => ?_, fun other unwaiting => ?_⟩
    · obtain ⟨started, phase⟩ := attach radio up powered
      exact (timer phase).trans started
    · obtain ⟨migrating, kind, released, claim, target, toward, noPath, path⟩ := fails active serves
      refine ⟨migrating, kind, released, claim, target, fun powered => ?_, fun none => ?_, fun some => ?_⟩
      · rw [toward, failoverTarget_eq]
        exact if_congr (other powered) rfl rfl
      · obtain ⟨pcf, sdc⟩ := noPath none
        exact ⟨pcf.trans raised.1, sdc.trans raised.2⟩
      · obtain ⟨pcf, sdc⟩ := path some
        exact ⟨pcf.trans faults.1, sdc.trans faults.2⟩
    · obtain ⟨pcf, sdc, serving, forced⟩ := stays fun h => other ⟨h.1, up, h.2⟩
      exact ⟨pcf.trans faults.1, sdc.trans faults.2, serving, forced.trans force⟩
    · exact waits (fun h => other ⟨h.1, up, h.2⟩) active waiting fibre
    · exact still (fun h => other ⟨h.1, up, h.2⟩) fun h => unwaiting ⟨h.1, up, h.2.2, h.2.1⟩
  · rw [if_neg up]
    exact ⟨record, flaps, fun _ is => absurd is up, mode, fun _ is => absurd is up,
      fun _ => ⟨faults.1, faults.2, service, force⟩, fun _ _ is => absurd is up, fun _ _ => state⟩

/-! ### The stall timer's expiry (R99) -/

theorem stallExpires_live {s : State} {p : Path} (live : (s.pathRec p).health = .trial ∨ (s.pathRec p).health = .up) :
    stallExpires s p = downEvent s p .stall := by
  unfold stallExpires
  rcases live with trial | up
  · rw [trial]
  · rw [up]

theorem exec_stallTimerExpiry_running {s : State} {p : Path} (rstn : s.rstn = true) (runs : (s.pathRec p).stall ≠ none)
    (live : (s.pathRec p).health = .trial ∨ (s.pathRec p).health = .up) :
    exec (.stallTimerExpiry p) s = .next (settleWork (downEvent s p .stall)) := by
  rw [← stallExpires_live live]
  exact congrArg _ (expiry_running (fun t => stallExpires t p) rstn (Option.isSome_iff_ne_none.mpr runs))

theorem exec_stallTimerExpiry_stopped {s : State} {p : Path} (stopped : (s.pathRec p).stall = none) :
    exec (.stallTimerExpiry p) s = .next s :=
  congrArg _ (expiry_stopped (fun t => stallExpires t p) (Option.isSome_eq_false_iff.mpr
    (Option.isNone_iff_eq_none.mpr stopped)))

/-- The fault records after a down event: PATH_DOWN, FLAP_LIMIT at the limit, and NO_PATH where a serving path fails over to
NONE. -/
theorem WentDown.faults {s t : State} {p : Path} {cause : DownCause} (h : WentDown s p cause t)
    [Decidable (s.pcf.part = .active ∧ (s.pathRec p).health = .up ∧ s.swc.service = some p)] :
    let faulted := if (s.pcf.part = .active ∧ (s.pathRec p).health = .up ∧ s.swc.service = some p) ∧ t.swc.service = none
      then (s.downFaults p).faulted .path .noPath none none else s.downFaults p
    t.pcf = faulted.pcf ∧ t.sdc = faulted.sdc := by
  intro faulted
  by_cases serving : s.pcf.part = .active ∧ (s.pathRec p).health = .up ∧ s.swc.service = some p
  · obtain ⟨active, up, serves⟩ := serving
    obtain ⟨-, -, -, -, -, -, noPath, path⟩ := h.fails active up serves
    by_cases none : t.swc.service = none
    · have raised : faulted = (s.downFaults p).faulted .path .noPath .none .none := if_pos ⟨⟨active, up, serves⟩, none⟩
      rw [raised]
      exact noPath none
    · have kept : faulted = s.downFaults p := if_neg fun failed => none failed.2
      rw [kept]
      exact path none
  · have kept : faulted = s.downFaults p := if_neg fun failed => serving failed.1
    obtain ⟨pcf, sdc, -⟩ := h.stays serving
    rw [kept]
    exact ⟨pcf, sdc⟩

/-- Settles O46: the event's report (`downReport_reported`), then the switch's answer (`pathLeftUp_leavesUp`). -/
theorem downEventEffects : Obligations.DownEventEffects := by
  refine ⟨?_, fun s p rstn runs live => exec_stallTimerExpiry_running rstn runs live,
    fun s p cause => ⟨applyCause_live cause, applyCause_gone cause⟩, fun s p => exec_stallTimerExpiry_stopped⟩
  intro s p cause g known r t kept serving limited down flapped faulted
  have grade := causeGrade_of_mem known
  have went : WentDown s p cause t := downEvent_wentDown s p cause
  obtain ⟨pcf, sdc⟩ := went.faults
  obtain ⟨record, flaps, attach, mode, fails, stays, waits, state⟩ := went
  rw [record]
  refine ⟨rfl, grade, rfl, rfl, rfl, rfl, rfl, rfl, pcf, sdc, fun radio => ?_, fun fibre => ?_, mode, attach,
    fun serves => ?_, fun unserving => ?_⟩
  · rw [flaps, if_neg (by rw [radio]; nofun)]
  · rw [flaps, if_pos fibre]
    rfl
  · obtain ⟨migrating, kind, released, claim, target, toward, -⟩ := fails serves.1 serves.2.1 serves.2.2
    exact ⟨migrating, kind, released, claim, target, toward⟩
  · obtain ⟨-, -, service, force⟩ := stays unserving
    exact ⟨service, force, waits unserving, state unserving⟩

end Sys2Proof.Machine

/-! SUPPORT. The radio power sequencer's timers (R106 to R110), and the ticks that expire flap entries and deferral records
(R68, R104). -/

namespace Sys2Proof.Machine

/-! ### The attach timer (R108 to R110) -/

theorem enterFailed_faulted (s : State) : enterFailed s =
    ({ s with
      pmn.power := { s.pmn.power with phase := .failed, attach := none, off := none }
      pmn.recs.radio := { s.pathRec .radio with health := .failed, trial := 0, silence := 0, stall := none } } :
      State).faulted .path .radioFailed (some .radio) none :=
  takeFault_faulted _ _ _ _

theorem powerCycle_idle {s : State} (other : (s.pathRec .radio).health ≠ .trial) :
    powerCycle s = { s with pmn.power := { s.pmn.power with phase := .cycling, attach := none, off := some 0 } } := by
  unfold powerCycle
  simp only
  rw [if_neg (by exact other)]

theorem powerCycle_trial {s : State} (trial : (s.pathRec .radio).health = .trial) : powerCycle s =
    { downEvent { s with pmn.power := { s.pmn.power with phase := .cycling, attach := none } } .radio .powerCycle with
      pmn.power.off := some 0 } := by
  unfold powerCycle
  simp only
  rw [if_pos (by exact trial)]

/-- The retry counted, the attach timer stopped and ATTACH_TIMEOUT raised. -/
def State.attachTimedOut (s : State) : State :=
  ({ s with
    pmn.power := { s.pmn.power with
      attach := none, retry := if s.pmn.power.retry < 8 then s.pmn.power.retry + 1 else 8 } } : State).faulted
    .path .attachTimeout (some .radio) none

theorem attachExpires_eq (s : State) : attachExpires s =
    if s.sdc.settings.radio.retry < (if s.pmn.power.retry < 8 then s.pmn.power.retry + 1 else 8) then
      enterFailed s.attachTimedOut
    else powerCycle s.attachTimedOut := by
  unfold attachExpires
  simp only [takeFault_faulted]
  rfl

/-! ### The keep timer (R106, R107) -/

theorem evalStandby_met {s : State} (met : s.standbyCond = true) : evalStandby s =
    if s.pmn.power.phase = .powered ∨ s.pmn.power.phase = .cycling then enterStandby s else s := by
  unfold evalStandby
  cases s.pmn.power.phase <;> simp only [met, if_true, true_or, or_true, reduceCtorEq, or_self, if_false]

section
variable {s : State} (rstn : s.rstn = true)
include rstn

theorem exec_attachTimerExpiry_running (runs : s.pmn.power.attach ≠ none) :
    exec .attachTimerExpiry s = .next (settleWork (attachExpires s)) :=
  congrArg _ (expiry_running attachExpires rstn (Option.isSome_iff_ne_none.mpr runs))

theorem exec_powerOffTimerExpiry_running (runs : s.pmn.power.off ≠ none) :
    exec .powerOffTimerExpiry s = .next (powerOffExpires s) :=
  congrArg _ (if_pos (Bool.and_eq_true_iff.mpr ⟨rstn, Option.isSome_iff_ne_none.mpr runs⟩))

theorem exec_keepTimerExpiry_running (runs : s.pmn.power.keep ≠ none) :
    exec .keepTimerExpiry s = .next (evalStandby { s with pmn.power.keep := none }) :=
  congrArg _ (if_pos (Bool.and_eq_true_iff.mpr ⟨rstn, Option.isSome_iff_ne_none.mpr runs⟩))

end

theorem exec_attachTimerExpiry_stopped {s : State} (stopped : s.pmn.power.attach = none) :
    exec .attachTimerExpiry s = .next s :=
  congrArg _ (expiry_stopped attachExpires (congrArg Option.isSome stopped))

theorem exec_powerOffTimerExpiry_stopped {s : State} (stopped : s.pmn.power.off = none) :
    exec .powerOffTimerExpiry s = .next s :=
  congrArg _ (if_neg (by rw [stopped]; simp))

theorem exec_keepTimerExpiry_stopped {s : State} (stopped : s.pmn.power.keep = none) :
    exec .keepTimerExpiry s = .next s :=
  congrArg _ (if_neg (by rw [stopped]; simp))

/-- Settles O47: the attach timer by `attachExpires_eq`, the keep timer by the standby condition once it has stopped. -/
theorem sequencerTimerExpiries : Obligations.SequencerTimerExpiries := by
  intro s rstn n timedOut cycling standby kept
  have cond : kept.standbyCond = true ↔ standby :=
    (standbyCond_iff kept).trans ⟨fun ⟨policy, up, serves, _⟩ => ⟨policy, up, serves⟩,
      fun ⟨policy, up, serves⟩ => ⟨policy, up, serves, rfl⟩⟩
  refine ⟨fun runs => ?_, exec_powerOffTimerExpiry_running rstn, fun runs => ?_, exec_attachTimerExpiry_stopped,
    exec_powerOffTimerExpiry_stopped, exec_keepTimerExpiry_stopped⟩
  · rw [exec_attachTimerExpiry_running rstn runs, attachExpires_eq]
    refine ⟨fun above => ?_, fun within other => ?_, fun within trial => ?_⟩
    · rw [if_pos above, enterFailed_faulted]
      rfl
    · rw [if_neg (Nat.not_lt.mpr within), powerCycle_idle (by exact other)]
      rfl
    · rw [if_neg (Nat.not_lt.mpr within), powerCycle_trial (by exact trial)]
      rfl
  · rw [exec_keepTimerExpiry_running rstn runs]
    refine ⟨fun met phase => ?_, fun unmet phase => ?_, fun idle => ?_⟩
    · exact congrArg _ ((evalStandby_met (cond.mpr met)).trans (if_pos phase))
    · have no : kept.standbyCond = false := Bool.eq_false_iff.mpr fun met => unmet (cond.mp met)
      exact congrArg _ ((evalStandby_unmet no).trans (if_pos phase))
    · refine congrArg _ ?_
      by_cases met : standby
      · have other : ¬ (kept.pmn.power.phase = .powered ∨ kept.pmn.power.phase = .cycling) := by
          rcases idle with ⟨unmet, -⟩ | ⟨-, phase⟩ | phase
          · exact absurd met unmet
          · rintro (e | e) <;> exact nomatch phase.symm.trans e
          · rintro (e | e) <;> exact nomatch phase.symm.trans e
        exact (evalStandby_met (cond.mpr met)).trans (if_neg other)
      · have no : kept.standbyCond = false := Bool.eq_false_iff.mpr fun h => met (cond.mp h)
        have awake : kept.pmn.power.phase ≠ .standby := by
          rcases idle with ⟨-, phase⟩ | ⟨is, -⟩ | phase
          · exact phase
          · exact absurd is met
          · exact fun e => nomatch phase.symm.trans e
        exact (evalStandby_unmet no).trans (if_neg awake)

/-! ### Entries replaced by a list of records -/

section
variable {α β : Type} (slot : α → Nat) (e : α → β)

theorem length_foldl_set (rs : List α) (l : List β) :
    (rs.foldl (fun l r => l.set (slot r) (e r)) l).length = l.length := by
  induction rs generalizing l with
  | nil => rfl
  | cons r rest ih => rw [List.foldl_cons, ih, List.length_set]

theorem getD_foldl_set_other {rs : List α} {i : Nat} (d : β) (l : List β) (other : ∀ r ∈ rs, slot r ≠ i) :
    (rs.foldl (fun l r => l.set (slot r) (e r)) l).getD i d = l.getD i d := by
  induction rs generalizing l with
  | nil => rfl
  | cons r rest ih =>
    obtain ⟨first, later⟩ := List.forall_mem_cons.mp other
    rw [List.foldl_cons, ih _ later]
    simp [List.getD, first]

theorem getD_foldl_set_same {rs : List α} {r : α} (d : β) (l : List β) (distinct : (rs.map slot).Nodup)
    (inside : ∀ r ∈ rs, slot r < l.length) (h : r ∈ rs) :
    (rs.foldl (fun l r => l.set (slot r) (e r)) l).getD (slot r) d = e r := by
  induction rs generalizing l with
  | nil => exact absurd h List.not_mem_nil
  | cons q rest ih =>
    obtain ⟨apart, distinct⟩ := List.nodup_cons.mp distinct
    obtain ⟨first, later⟩ := List.forall_mem_cons.mp inside
    rw [List.foldl_cons]
    rcases List.mem_cons.mp h with rfl | behind
    · have others : ∀ q ∈ rest, slot q ≠ slot r := fun q hq same => apart (same ▸ List.mem_map_of_mem hq)
      rw [getD_foldl_set_other slot e d _ others]
      simp [List.getD, first]
    · exact ih _ distinct (by simpa only [List.length_set] using later) behind

end

/-! ### The ticks (R68, R104) -/

/-- The entry of an expired record (R68). -/
def State.expiredEntry (s : State) (r : DeferralRec) : TxEntry :=
  { s.entry r.slot with state := .skipped, path := none, pslot := none, final := some 9, finalPending := some true }

/-- The final write of an expired record (R68). -/
def State.expiredWrite (s : State) (r : DeferralRec) : Access :=
  ⟨.final, s.svcTxAddr r.slot 0, [BitVec.ofNat 16 (((s.entry r.slot).cls.getD 0).toNat * 2048 + 9 * 128)], some r.slot, none,
    0, false, false⟩

/-- The records out of the queue, their entries SKIPPED and their final writes requested in turn. -/
def State.recordsExpired (s : State) (rs : List DeferralRec) : State :=
  { s with
    tsm.entries := rs.foldl (fun l r => l.set r.slot (s.expiredEntry r)) s.tsm.entries
    ple.deferralQ := s.ple.deferralQ.filter (fun r => decide (r.slot ∉ rs.map (·.slot)))
    fsp.list := s.fsp.list ++ rs.map s.expiredWrite }

theorem expireRecord_expired (s : State) (r : DeferralRec) : expireRecord s r = s.recordsExpired [r] := by
  unfold expireRecord State.recordsExpired
  rw [skipEntry_skipped]
  simp only [List.map_cons, List.map_nil, List.mem_singleton]
  rfl

/-- Records of distinct slots expire each by its own entry. -/
theorem foldl_expireRecord (rs : List DeferralRec) (s : State) (distinct : (rs.map (·.slot)).Nodup) :
    rs.foldl expireRecord s = s.recordsExpired rs := by
  induction rs generalizing s with
  | nil => simp [State.recordsExpired]
  | cons r rest ih =>
    obtain ⟨apart, distinct⟩ := List.nodup_cons.mp distinct
    have entry (q : DeferralRec) (hq : q ∈ rest) : (s.recordsExpired [r]).entry q.slot = s.entry q.slot := by
      have differ : r.slot ≠ q.slot := fun same => apart (List.mem_map.mpr ⟨q, hq, same.symm⟩)
      exact getD_foldl_set_other (rs := [r]) (·.slot) s.expiredEntry freeEntry s.tsm.entries (by simpa using differ)
    have entries (l : List TxEntry) : rest.foldl (fun l q => l.set q.slot ((s.recordsExpired [r]).expiredEntry q)) l =
        rest.foldl (fun l q => l.set q.slot (s.expiredEntry q)) l := by
      refine List.foldl_ext _ _ l fun l q hq => ?_
      unfold State.expiredEntry
      rw [entry q hq]
    have writes : rest.map (s.recordsExpired [r]).expiredWrite = rest.map s.expiredWrite := by
      refine List.map_congr_left fun q hq => ?_
      unfold State.expiredWrite
      rw [entry q hq]
      rfl
    have rest_expired : (s.recordsExpired [r]).recordsExpired rest = { s.recordsExpired [r] with
        tsm.entries := rest.foldl (fun l q => l.set q.slot ((s.recordsExpired [r]).expiredEntry q))
          (s.recordsExpired [r]).tsm.entries
        ple.deferralQ :=
          (s.recordsExpired [r]).ple.deferralQ.filter (fun q => decide (q.slot ∉ rest.map (·.slot)))
        fsp.list := (s.recordsExpired [r]).fsp.list ++ rest.map (s.recordsExpired [r]).expiredWrite } := rfl
    rw [List.foldl_cons, expireRecord_expired, ih _ distinct, rest_expired, entries, writes]
    unfold State.recordsExpired
    simp only [List.foldl_cons, List.foldl_nil, List.map_cons, List.map_nil, List.append_assoc,
      List.singleton_append, List.filter_filter, List.mem_cons, List.not_mem_nil, or_false, not_or, Bool.decide_and,
      Bool.and_comm]

theorem exec_flapExpiry {s : State} (rstn : s.rstn = true) : exec .flapExpiry s = .next (flapTick s) :=
  congrArg _ (if_pos rstn)

theorem exec_deferralExpiry {s : State} (rstn : s.rstn = true) : exec .deferralExpiry s = .next (deferralTick s) :=
  congrArg _ (if_pos rstn)

theorem ageChecked_iff (s : State) :
    s.ageChecked = true ↔ s.pcf.part = .active ∧ s.sdc.settings.timing.deferralAge ≠ 0 := by
  simp only [State.ageChecked, Bool.and_eq_true, decide_eq_true_eq]

theorem deferralTick_unchecked {s : State} (h : s.pcf.part ≠ .active ∨ s.sdc.settings.timing.deferralAge = 0) :
    deferralTick s = { s with clock.secDue := false } := by
  refine if_neg fun checked => ?_
  obtain ⟨active, limit⟩ := (ageChecked_iff s).mp checked
  exact h.elim (fun e => e active) limit

theorem deferralTick_checked {s : State} (active : s.pcf.part = .active)
    (limit : s.sdc.settings.timing.deferralAge ≠ 0) (distinct : (s.ple.deferralQ.map (·.slot)).Nodup) :
    deferralTick s = ({ s with clock.secDue := false } : State).recordsExpired (s.ple.deferralQ.filter s.tooOld) := by
  have sublist : ((s.ple.deferralQ.filter s.tooOld).map (·.slot)).Sublist (s.ple.deferralQ.map (·.slot)) :=
    List.filter_sublist.map _
  exact (if_pos ((ageChecked_iff s).mpr ⟨active, limit⟩)).trans (foldl_expireRecord _ _ (distinct.sublist sublist))

/-- With distinct slots the records kept are the ones that are not old. -/
theorem filter_slot_notMem (q : List DeferralRec) (old : DeferralRec → Bool) (distinct : (q.map (·.slot)).Nodup) :
    q.filter (fun r => decide (r.slot ∉ (q.filter old).map (·.slot))) = q.filter (fun r => !old r) := by
  refine List.filter_congr fun r hr => ?_
  have gone : r.slot ∈ (q.filter old).map (·.slot) ↔ old r = true := by
    rw [List.mem_map]
    refine ⟨fun ⟨t, ht, same⟩ => ?_, fun is => ⟨r, List.mem_filter.mpr ⟨hr, is⟩, rfl⟩⟩
    obtain ⟨member, is⟩ := List.mem_filter.mp ht
    exact List.inj_on_of_nodup_map distinct member hr same ▸ is
  cases h : old r <;> simp only [gone, h, Bool.false_eq_true, not_false_eq_true, not_true_eq_false, decide_true, decide_false,
    Bool.not_false, Bool.not_true]

/-- Settles O48: the flap list by `expireFlaps_eq`, the deferral queue by `foldl_expireRecord`. -/
theorem ticksExpireRecords : Obligations.TicksExpireRecords := by
  intro s rstn
  refine ⟨?_, fun unchecked => (exec_deferralExpiry rstn).trans (congrArg _ (deferralTick_unchecked unchecked)), ?_⟩
  · rw [exec_flapExpiry rstn, flapTick, expireFlaps_eq]
    rfl
  · intro active limit distinct inside old
    have members {r : DeferralRec} : r ∈ s.ple.deferralQ.filter old ↔ r ∈ s.ple.deferralQ ∧ old r = true := List.mem_filter
    refine ⟨(s.ple.deferralQ.filter old).foldl (fun l r => l.set r.slot (s.expiredEntry r)) s.tsm.entries, ?_,
      length_foldl_set _ _ _ _, fun r hr is => ?_, fun i other => ?_⟩
    · rw [exec_deferralExpiry rstn, deferralTick_checked active limit distinct, ← filter_slot_notMem _ old distinct]
      rfl
    · refine getD_foldl_set_same (·.slot) s.expiredEntry freeEntry s.tsm.entries ?_ (fun q hq => inside q (members.mp hq).1)
        (members.mpr ⟨hr, is⟩)
      exact distinct.sublist (List.filter_sublist.map _)
    · exact getD_foldl_set_other (·.slot) s.expiredEntry freeEntry s.tsm.entries fun r hr =>
        other r (members.mp hr).1 (members.mp hr).2

end Sys2Proof.Machine

/-! SUPPORT. The engine's choice of work (R48) and the judgement of a scan's next record (R65). -/

namespace Sys2Proof.Machine

/-! ### The choice without a scan (R48) -/

theorem deferralFirst_iff (s : State) (r : DeferralRec) :
    s.deferralFirst r = true ↔ ∀ j, s.ple.placementQ.head? = some j → s.orderOf r.seq < s.slotOrder j := by
  unfold State.deferralFirst
  cases s.ple.placementQ with
  | nil => exact iff_of_true rfl nofun
  | cons j rest =>
    refine decide_eq_true_iff.trans ⟨fun older i head => ?_, fun older => older j rfl⟩
    obtain rfl : j = i := Option.some.inj head
    exact older

/-- An engine that has work of its own to choose: ACTIVE, a service path, no claim and no operation. -/
structure State.choosing (s : State) (p : Path) : Prop where
  part : s.pcf.part = .active
  service : s.swc.service = some p
  claim : s.ple.claim = .none
  op : s.ple.op = none

section
variable {s : State} {p : Path} (h : s.choosing p)
include h

theorem engineStep_scan {c : Scan} (scan : s.ple.scan = some c) : engineStep s = some (scanStep s c p) := by
  unfold engineStep
  simp only [h.part, h.service, h.claim, h.op, scan]

theorem engineStep_prompted (scan : s.ple.scan = none) (marked : s.ple.rexPending = true) :
    engineStep s = some { s with ple.rexPending := false, ple.scan := some ⟨[], none⟩ } := by
  unfold engineStep
  simp only [h.part, h.service, h.claim, h.op, scan, marked, if_true]

variable (scan : s.ple.scan = none) (unmarked : s.ple.rexPending = false)
include scan unmarked

/-- The deferral queue's head goes first on FIBRE while no older entry waits for its placement. -/
theorem engineStep_deferral {r : DeferralRec} {rest : List DeferralRec} (fibre : p = .fibre)
    (queue : s.ple.deferralQ = r :: rest)
    (older : ∀ j, s.ple.placementQ.head? = some j → s.orderOf r.seq < s.slotOrder j) :
    engineStep s = some ((removeRecord s r.slot).begunOn r.slot .placement .fibre) := by
  subst fibre
  unfold engineStep
  simp only [h.part, h.service, h.claim, h.op, scan, unmarked, queue, (deferralFirst_iff s r).mpr older, if_true,
    Bool.false_eq_true, if_false, beginOp_begun]

/-- The placement queue's head goes first unless on FIBRE an older record is deferred. -/
theorem engineStep_placement {i : Nat} {rest : List Nat} (queue : s.ple.placementQ = i :: rest)
    (older : p = .fibre → ∀ r, s.ple.deferralQ.head? = some r → s.slotOrder i ≤ s.orderOf r.seq) :
    engineStep s = some (({ s with ple.placementQ := rest } : State).begunOn i .placement p) := by
  unfold engineStep
  simp only [h.part, h.service, h.claim, h.op, scan, unmarked, queue, Bool.false_eq_true, if_false, beginOp_begun]
  cases p with
  | radio => rfl
  | fibre =>
    cases deferred : s.ple.deferralQ with
    | nil => rfl
    | cons r back =>
      have second : ¬ s.deferralFirst r = true := fun first =>
        Nat.not_le.mpr ((deferralFirst_iff s r).mp first i (congrArg List.head? queue))
          (older rfl r (congrArg List.head? deferred))
      simp only [second, Bool.false_eq_true, if_false]

theorem engineStep_idle (queue : s.ple.placementQ = []) (deferred : p = .fibre → s.ple.deferralQ = []) :
    engineStep s = none := by
  refine (engineStep_none_iff s).mpr fun q part service claim op => ⟨scan, unmarked, queue, fun fibre => deferred ?_⟩
  exact (Option.some.inj (h.service.symm.trans service)).trans fibre

end

/-! ### A scan (R65) -/

theorem newerThan_iff (s : State) (pos : Option Word) (r : DeferralRec) :
    s.newerThan pos r = true ↔ ∀ q, pos = some q → s.orderOf q < s.orderOf r.seq := by
  unfold State.newerThan
  cases pos with
  | none => exact iff_of_true rfl nofun
  | some q =>
    refine decide_eq_true_iff.trans ⟨fun newer q' same => ?_, fun newer => newer q rfl⟩
    obtain rfl : q = q' := Option.some.inj same
    exact newer

section
variable {s : State} {c : Scan}

theorem nextRecord_none (old : ∀ r ∈ s.ple.deferralQ, ¬ ∀ q, c.pos = some q → s.orderOf q < s.orderOf r.seq) :
    s.nextRecord c = none := by
  rw [nextRecord_eq]
  exact List.find?_eq_none.mpr fun r hr newer => old r hr ((newerThan_iff s c.pos r).mp newer)

theorem nextRecord_some {front back : List DeferralRec} {r : DeferralRec} (queue : s.ple.deferralQ = front ++ r :: back)
    (old : ∀ t ∈ front, ¬ ∀ q, c.pos = some q → s.orderOf q < s.orderOf t.seq)
    (newer : ∀ q, c.pos = some q → s.orderOf q < s.orderOf r.seq) : s.nextRecord c = some r := by
  rw [nextRecord_eq]
  refine List.find?_eq_some_iff_append.mpr ⟨(newerThan_iff s c.pos r).mpr newer, front, back, queue, fun t ht => ?_⟩
  rw [Bool.not_eq_true']
  exact Bool.eq_false_iff.mpr fun is => old t ht ((newerThan_iff s c.pos t).mp is)

theorem scanStep_ends (p : Path) (next : s.nextRecord c = none) : scanStep s c p =
    { s with ple.scan := none, ple.rexPending := s.ple.rexPending || s.ple.rescan, ple.rescan := false } := by
  unfold scanStep
  simp only [next]

end

/-- A record of a class the scan has blocked, or behind a posted entry of its class (R65). -/
def State.blockedBy (s : State) (c : Scan) (r : DeferralRec) : Prop :=
  r.cls ∈ c.blocked ∨ ∃ j ∈ s.ple.placementQ,
    ((s.entry j).cls = none ∨ (s.entry j).cls = some r.cls) ∧ s.slotOrder j < s.orderOf r.seq

theorem blockedBy_iff (s : State) (c : Scan) (r : DeferralRec) :
    (c.blocked.contains r.cls || s.postedOlder r) = true ↔ s.blockedBy c r := by
  simp only [State.blockedBy, State.postedOlder, Bool.or_eq_true, List.contains_iff_mem, List.any_eq_true, Bool.and_eq_true,
    decide_eq_true_eq, Option.isNone_iff_eq_none]
  rfl

/-- The scan moved to a record that stays, its class blocked. -/
def State.scanKeeps (s : State) (c : Scan) (r : DeferralRec) : State :=
  { s with ple.scan := some ⟨if r.cls ∈ c.blocked then c.blocked else r.cls :: c.blocked, some r.seq⟩ }

/-- The scan moved to a record that leaves the queue. -/
def State.scanTakes (s : State) (c : Scan) (r : DeferralRec) : State :=
  { s with
    ple.scan := some ⟨c.blocked, some r.seq⟩
    ple.deferralQ := s.ple.deferralQ.filter (fun q => decide (q.slot ≠ r.slot)) }

/-- The judgement of a scan's next record (R65). -/
theorem scanStep_judges {s : State} {c : Scan} {r : DeferralRec} (p : Path) (next : s.nextRecord c = some r)
    [Decidable (s.blockedBy c r)] : scanStep s c p =
    if s.blockedBy c r then s.scanKeeps c r
    else
      match s.actionOn p r.cls with
      | .skip => (s.scanTakes c r).skippedWith r.slot 8
      | .defer => s.scanKeeps c r
      | .pass =>
        if s.umt.pool < s.cost p r.cls ((s.entry r.slot).len.getD 0) then s.scanKeeps c r
        else (s.scanTakes c r).begunOn r.slot .release p := by
  have keep : ({ s with ple.scan := some (({ c with pos := some r.seq } : Scan).block r.cls) } : State) =
      s.scanKeeps c r := by
    unfold Scan.block State.scanKeeps
    by_cases blocked : r.cls ∈ c.blocked
    · simp [blocked]
    · simp [blocked]
  unfold scanStep
  simp only [next, blockedBy_iff, keep, action_actionOn, skipEntry_skipped, beginOp_begun]
  rfl

/-- Settles O51: the engine's choice without a scan by the heads of the two queues, the scan's by `scanStep_judges`. -/
theorem engineChoosesWork : Obligations.EngineChoosesWork := by
  intro s claim
  rw [workStep_engine s claim]
  refine ⟨fun idle => ?_, fun p part service op scan => ?_, fun p c part service op scan => ?_⟩
  · refine (engineStep_none_iff s).mpr fun p part service _ op => ?_
    rcases idle with stopped | none | busy
    · exact absurd part stopped
    · exact nomatch none.symm.trans service
    · exact absurd op busy
  · have h : s.choosing p := ⟨part, service, claim, op⟩
    exact ⟨engineStep_prompted h scan, fun unmarked =>
      ⟨fun r rest => engineStep_deferral h scan unmarked, fun i rest => engineStep_placement h scan unmarked,
        engineStep_idle h scan unmarked⟩⟩
  · rw [engineStep_scan ⟨part, service, claim, op⟩ scan]
    refine ⟨fun old => congrArg some (scanStep_ends p (nextRecord_none old)), ?_⟩
    intro front r back queue old newer blocked stays leaves cost
    have next : s.nextRecord c = some r := nextRecord_some queue old newer
    have price : cost = s.cost p r.cls ((s.entry r.slot).len.getD 0) := by cases p <;> rfl
    have decidable : Decidable (s.blockedBy c r) := decidable_of_iff _ (blockedBy_iff s c r)
    rw [price, scanStep_judges p next]
    refine ⟨fun is => ?_, fun free skip => ?_, fun free defer => ?_, fun free pass poor => ?_, fun free pass rich => ?_⟩
    · rw [if_pos (c := s.blockedBy c r) is]
      rfl
    · rw [if_neg (c := s.blockedBy c r) free, skip]
      rfl
    · rw [if_neg (c := s.blockedBy c r) free, defer]
      rfl
    · rw [if_neg (c := s.blockedBy c r) free, pass]
      exact congrArg some (if_pos poor)
    · rw [if_neg (c := s.blockedBy c r) free, pass]
      exact congrArg some (if_neg (Nat.not_lt.mpr rich))

end Sys2Proof.Machine

/-! SUPPORT. What the work that takes no time leaves alone (log 18): the radio's record unless the radio leaves TRIAL and UP,
and the timers brought in line once. -/

namespace Sys2Proof.Machine

/-! ### The radio's record through the work -/

/-- A radio in TRIAL or UP has the record it had: the work puts a radio into STANDBY or powers it up, and does no more. -/
def RadioKept (s t : State) : Prop :=
  (t.pathRec .radio).health = .trial ∨ (t.pathRec .radio).health = .up → t.pathRec .radio = s.pathRec .radio

section
variable {s t u : State}

theorem RadioKept.of_pmn (h : t.pmn = s.pmn) : RadioKept s t := fun _ => congrArg (fun m : Pmn => m.recs.radio) h

theorem RadioKept.refl (s : State) : RadioKept s s := .of_pmn rfl

theorem RadioKept.trans (h : RadioKept s t) (k : RadioKept t u) : RadioKept s u := fun live =>
  have same := k live
  same.trans (h (same ▸ live))

theorem RadioKept.then_pmn (h : RadioKept s t) (k : u.pmn = t.pmn) : RadioKept s u := h.trans (.of_pmn k)

theorem RadioKept.ite {c : Prop} [Decidable c] (h : RadioKept s t) (k : RadioKept s u) : RadioKept s (if c then t else u) := by
  split
  · exact h
  · exact k

end

theorem startMigration_radioKept (s : State) (target : Option Path) (kind : MigrationKind) :
    RadioKept s (startMigration s target kind) := by
  have pmn := startMigration_pmn s target kind
  by_cases same : s.swc.service = target
  · exact .of_pmn (pmn.trans (if_pos same))
  · rw [if_neg same] at pmn
    have record : (startMigration s target kind).pathRec .radio = (s.monitorServing target).recs.radio :=
      congrArg (fun m : Pmn => m.recs.radio) pmn
    unfold RadioKept
    rw [record]
    unfold State.monitorServing
    split
    · rintro (trial | up)
      · cases trial
      · cases up
    · exact fun _ => rfl

theorem settleEngine_pmn (s : State) : (settleEngine s).pmn = s.pmn := by
  obtain ⟨-, -, pmn, -⟩ := runEngine_frame s.engineFuel s
  exact pmn

theorem prompt_pmn (s : State) : (prompt s).pmn = s.pmn := by
  rw [prompt_prompted, prompted_frame]

theorem testWait_radioKept (s : State) : RadioKept s (testWait s) :=
  .ite ((RadioKept.of_pmn rfl).trans (startMigration_radioKept (stopWait s) _ _)) (.refl s)

theorem arrivalTrigger_radioKept (s : State) : RadioKept s (arrivalTrigger s) :=
  .ite (.ite (startMigration_radioKept s _ _) (.ite (startMigration_radioKept s _ _) (.refl s))) (.refl s)

theorem failbackTest_radioKept (s : State) : RadioKept s (failbackTest s) := by
  refine .ite ?_ (.refl s)
  split
  · exact .of_pmn rfl
  · exact .ite ((RadioKept.of_pmn rfl).trans (testWait_radioKept _)) (.refl s)

theorem endMigration_radioKept (s : State) : RadioKept s (endMigration s) := by
  have triggered {t : State} (h : RadioKept s t) : RadioKept s (if t.swc.service = none then arrivalTrigger t
      else if t.swc.service = some .radio then failbackTest t else t) :=
    .ite (h.trans (arrivalTrigger_radioKept t)) (.ite (h.trans (failbackTest_radioKept t)) h)
  have counted {t : State} (h : RadioKept s t) : RadioKept s (match s.swc.kind with
      | some .failover => { t with swc.failovers := satInc 65535 t.swc.failovers }
      | some .failback => { t with swc.failbacks := satInc 65535 t.swc.failbacks }
      | some .arrival => t
      | some .forced => t
      | none => t : State) := by
    split <;> exact h.then_pmn rfl
  have chosen : RadioKept s (settleEngine { s with
      swc.state := .steady, swc.target := none, swc.kind := none, swc.step := none, ple.claim := .none }) :=
    .of_pmn (settleEngine_pmn _)
  have scanned := (chosen.then_pmn (prompt_pmn _)).then_pmn (settleEngine_pmn _)
  unfold endMigration
  exact triggered (counted ((RadioKept.ite scanned chosen).then_pmn rfl))

theorem workStep_radioKept {s t : State} (work : workStep s = some t) : RadioKept s t := by
  unfold workStep at work
  split at work
  · obtain ⟨-, -, pmn, -⟩ := engineStep_frame s t work
    exact .of_pmn pmn
  · split at work
    · injection work with granted
      exact granted ▸ .of_pmn rfl
    · cases work
  · split at work
    · split at work
      · injection work with ended
        exact ended ▸ endMigration_radioKept s
      · injection work with examined
        rw [← examined]
        unfold examine
        simp only
        split <;> exact .of_pmn rfl
    · cases work

theorem runWork_radioKept (n : Nat) (s : State) : RadioKept s (runWork n s) := by
  induction n generalizing s with
  | zero => exact .refl s
  | succ n ih =>
    unfold runWork
    split
    · exact .refl s
    · rename_i t work
      exact (workStep_radioKept work).trans (ih t)

/-! ### The timers in line (R99, R165) -/

/-- A stall timer that runs is in line, and one in line is in line again. -/
theorem stallInLine_twice (s : State) (p : Path) : s.timersInLine.stallInLine p = s.stallInLine p := by
  by_cases runs : s.pcf.part = .active ∧ ((s.pathRec p).health = .trial ∨ (s.pathRec p).health = .up) ∧
      s.sdc.settings.timing.stall ≠ 0 ∧ (s.ring p).producer ≠ (s.ring p).consumer
  · have started : s.stallInLine p = some ((s.pathRec p).stall.getD 0) := if_pos runs
    have again : s.timersInLine.stallInLine p = some ((s.stallInLine p).getD 0) := by
      cases p <;> exact if_pos runs
    rw [again, started]
    rfl
  · have stopped : s.stallInLine p = none := if_neg runs
    have again : s.timersInLine.stallInLine p = none := by cases p <;> exact if_neg runs
    rw [again, stopped]

theorem timersInLine_twice (s : State) : s.timersInLine = s.timersInLine.timersInLine := by
  have streak : s.timersInLine.timersInLine.fsp.streak = s.timersInLine.fsp.streak := by
    by_cases waits : ((s.pcf.part = .starting ∨ s.pcf.part = .active) ∧ s.fsp.list ≠ []) ∨
        (s.pcf.part = .active ∧ s.fsp.copyReq ≠ none)
    · exact if_pos waits
    · exact (if_neg waits).trans (if_neg waits).symm
  have again : s.timersInLine.timersInLine = { s.timersInLine with
      pmn.recs := ⟨{ s.pathRec .fibre with stall := s.timersInLine.stallInLine .fibre },
        { s.pathRec .radio with stall := s.timersInLine.stallInLine .radio }⟩
      fsp.streak := s.timersInLine.timersInLine.fsp.streak } := rfl
  rw [again, stallInLine_twice, stallInLine_twice, streak]
  rfl

/-- The stall timers and the near streak set. -/
def State.withTimers (s : State) (fibre radio : Timer) (streak : Nat) : State :=
  { s with
    pmn.recs := ⟨{ s.pathRec .fibre with stall := fibre }, { s.pathRec .radio with stall := radio }⟩
    fsp.streak := streak }

theorem timersInLine_withTimers (s : State) : s.timersInLine =
    s.withTimers (s.stallInLine .fibre) (s.stallInLine .radio) s.timersInLine.fsp.streak := rfl

/-- Settles O53: the work changes what the switch and the engine own (`runWork_frame`) and at most stops the radio's stall
timer (`runWork_radioKept`), and the timers are brought in line last. -/
theorem zeroTimeWorkKeeps : Obligations.ZeroTimeWorkKeeps := by
  intro s
  have radio := runWork_radioKept s.workFuel s
  obtain ⟨frame, size, monitor, switch, raised, own, pcf, seen⟩ := runWork_frame s.workFuel s
  have work : settleWork s = (runWork s.workFuel s).timersInLine := syncTimers_inLine _
  rw [work]
  generalize runWork s.workFuel s = u at radio frame size monitor switch pcf seen
  have faults : u.pcf = { s.pcf with pending := u.pcf.pending } := by rw [pcf]
  refine ⟨?_, size, ⟨raised, own, congrArg Pcf.pending pcf, seen⟩, timersInLine_twice u, fun p => ?_⟩
  · rw [monitor, switch, faults] at frame
    exact (timersInLine_withTimers u).trans
      ((congrArg (fun v => v.withTimers (u.stallInLine .fibre) (u.stallInLine .radio) u.timersInLine.fsp.streak)
        frame).trans rfl)
  · have timer : (u.timersInLine.pathRec p).stall = u.stallInLine p := by cases p <;> rfl
    rw [timer]
    unfold State.stallInLine
    simp only
    split
    · rename_i runs
      obtain ⟨-, live, -⟩ := runs
      have kept : (u.pathRec p).stall = (s.pathRec p).stall := by
        cases p with
        | fibre => exact (congrArg (fun m : Pmn => m.recs.fibre.stall) monitor).trans rfl
        | radio => exact congrArg PathRecord.stall (radio live)
      exact .inr (congrArg (fun t : Timer => some (t.getD 0)) kept)
    · exact .inl rfl

end Sys2Proof.Machine

/-! SUPPORT. The migration list (R70, R128) and the examination of its head (R39, R129). -/

namespace Sys2Proof.Machine

/-! ### The service slots in ring order (R21) -/

/-- The place of a service slot in the ring, counted from the reclaim record. -/
def State.ringPlace (s : State) (i : Nat) : Nat :=
  (i + s.tsm.entries.length - s.tsm.reclaim.toNat % s.tsm.entries.length) % s.tsm.entries.length

/-- The slot at a place has that place. -/
theorem ringPlace_of_place {r n k : Nat} (h : k < n) : ((r % n + k) % n + n - r % n) % n = k := by
  have start : r % n < n := Nat.mod_lt _ (Nat.zero_lt_of_lt h)
  generalize r % n = a at start
  by_cases wraps : a + k < n
  · rw [Nat.mod_eq_of_lt wraps, show a + k + n - a = k + n by omega, Nat.add_mod_right, Nat.mod_eq_of_lt h]
  · have wrapped : (a + k) % n = a + k - n := by
      rw [Nat.mod_eq_sub_mod (Nat.not_lt.mp wraps), Nat.mod_eq_of_lt (by omega)]
    rw [wrapped, show a + k - n + n - a = k by omega, Nat.mod_eq_of_lt h]

theorem mem_slotsInOrder {s : State} {i : Nat} (h : i < s.tsm.entries.length) : i ∈ s.slotsInOrder := by
  unfold State.slotsInOrder slotOf
  rw [List.mem_map]
  refine ⟨s.ringPlace i, List.mem_range.mpr (Nat.mod_lt _ (Nat.zero_lt_of_lt h)), ?_⟩
  unfold State.ringPlace
  have start : s.tsm.reclaim.toNat % s.tsm.entries.length < s.tsm.entries.length := Nat.mod_lt _ (Nat.zero_lt_of_lt h)
  generalize s.tsm.reclaim.toNat % s.tsm.entries.length = a at start
  rw [Nat.add_mod_mod, show a + (i + s.tsm.entries.length - a) = i + s.tsm.entries.length by omega, Nat.add_mod_right,
    Nat.mod_eq_of_lt h]

theorem slotsInOrder_pairwise (s : State) : s.slotsInOrder.Pairwise (fun i j => s.ringPlace i < s.ringPlace j) := by
  unfold State.slotsInOrder
  rw [List.pairwise_map]
  refine List.pairwise_lt_range.imp_of_mem fun {j k} hj hk before => ?_
  have place {k : Nat} (hk : k ∈ List.range s.tsm.entries.length) :
      s.ringPlace ((slotOf s.tsm.reclaim s.tsm.entries.length + k) % s.tsm.entries.length) = k :=
    ringPlace_of_place (List.mem_range.mp hk)
  rw [place hj, place hk]
  exact before

/-! ### The migration list (R128) -/

/-- An entry PLACED in the ring of a path other than the target. -/
def State.stranded (s : State) (target : Option Path) (i : Nat) : Prop :=
  (s.entry i).state = .placed ∧ (s.entry i).path ≠ target

/-- An entry a migration to the target lists: a stranded one, and one in the target's ring behind a stranded one of its
class. -/
def State.listedFor (s : State) (target : Option Path) (i : Nat) : Prop :=
  s.stranded target i ∨ (target ≠ none ∧ (s.entry i).state = .placed ∧ (s.entry i).path = target ∧
    ∃ j, s.stranded target j ∧ (s.entry j).cls = (s.entry i).cls ∧ s.slotOrder j < s.slotOrder i)

/-- An entry in use has its place in the table. -/
theorem lt_of_placed {s : State} {i : Nat} (placed : (s.entry i).state = .placed) : i < s.tsm.entries.length := by
  by_contra beyond
  have free : s.entry i = freeEntry := List.getD_eq_default _ _ (Nat.not_lt.mp beyond)
  rw [free] at placed
  cases placed

theorem strandedAt_iff (s : State) (target : Option Path) (i : Nat) : s.strandedAt target i = true ↔ s.stranded target i := by
  simp only [State.strandedAt, State.stranded, Bool.and_eq_true, decide_eq_true_eq]

theorem behindStranded_iff (s : State) (target : Option Path) (i : Nat) : s.behindStranded target i = true ↔
    target ≠ none ∧ (s.entry i).state = .placed ∧ (s.entry i).path = target ∧
      ∃ j, s.stranded target j ∧ (s.entry j).cls = (s.entry i).cls ∧ s.slotOrder j < s.slotOrder i := by
  simp only [State.behindStranded, Bool.and_eq_true, decide_eq_true_eq, List.any_eq_true, strandedAt_iff, and_assoc]
  refine and_congr_right' (and_congr_right' (and_congr_right' ⟨fun ⟨j, _, h⟩ => ⟨j, h⟩, fun ⟨j, h⟩ => ⟨j, ?_, h⟩⟩))
  exact mem_slotsInOrder (lt_of_placed h.1.1)

theorem listedFor_placed {s : State} {target : Option Path} {i : Nat} (h : s.listedFor target i) :
    (s.entry i).state = .placed := by
  rcases h with ⟨placed, -⟩ | ⟨-, placed, -⟩ <;> exact placed

theorem mem_migrationList (s : State) (target : Option Path) (i : Nat) :
    i ∈ (s.migrationList target).map (·.slot) ↔ s.listedFor target i := by
  have slots : (s.migrationList target).map (·.slot) =
      s.slotsInOrder.filter (fun i => s.strandedAt target i || s.behindStranded target i) := by
    unfold State.migrationList
    rw [List.map_map]
    exact List.map_id _
  rw [slots, List.mem_filter, Bool.or_eq_true, strandedAt_iff, behindStranded_iff]
  exact ⟨And.right, fun h => ⟨mem_slotsInOrder (lt_of_placed (listedFor_placed h)), h⟩⟩

theorem migrationList_seq {s : State} {target : Option Path} {m : MigrationItem} (h : m ∈ s.migrationList target) :
    m.seq = (s.entry m.slot).seq.getD 0 := by
  obtain ⟨i, -, rfl⟩ := List.mem_map.mp h
  rfl

theorem migrationList_pairwise (s : State) (target : Option Path) :
    (s.migrationList target).Pairwise (fun a b => s.ringPlace a.slot < s.ringPlace b.slot) := by
  unfold State.migrationList
  rw [List.pairwise_map]
  exact (slotsInOrder_pairwise s).filter _

/-! ### The walk (R39, R129) -/

/-- A switch that migrates with the engine idle and no step open (R129). -/
structure State.walking (s : State) : Prop where
  part : s.pcf.part = .active
  migrating : s.swc.state = .migrating
  op : s.ple.op = none
  step : s.swc.step = none

section
variable {s : State} (h : s.walking)
include h

theorem workStep_pending (claim : s.ple.claim = .pending) (scan : s.ple.scan = none) :
    workStep s = some { s with ple.claim := .held, swc.list := s.migrationList (s.swc.target.getD none) } := by
  unfold workStep
  rw [claim]
  exact if_pos ⟨h.part, h.migrating, h.op, h.step, scan⟩

theorem workStep_head {m : MigrationItem} {rest : List MigrationItem} (claim : s.ple.claim = .held)
    (list : s.swc.list = m :: rest) : workStep s = some (examine s m rest) := by
  unfold workStep
  rw [claim, list]
  exact if_pos ⟨h.part, h.migrating, h.op, h.step⟩

theorem workStep_end (claim : s.ple.claim = .held) (list : s.swc.list = []) : workStep s = some (endMigration s) := by
  unfold workStep
  rw [claim, list]
  exact if_pos ⟨h.part, h.migrating, h.op, h.step⟩

end

theorem withdrawalWord_value (cls : Cls) : withdrawalWord cls = BitVec.ofNat 16 (0xC000 + cls.toNat * 2048) := by
  revert cls
  decide

theorem examine_placed {s : State} {m : MigrationItem} {rest : List MigrationItem} {p : Path} {ps : Nat}
    (placed : (s.entry m.slot).state = .placed) (path : (s.entry m.slot).path = some p)
    (pslot : (s.entry m.slot).pslot = some ps) : examine s m rest =
    { s with
      tsm.entries := s.tsm.entries.set m.slot { s.entry m.slot with state := .withdrawing }
      swc.list := rest
      swc.step := some m.slot
      fsp.list := s.fsp.list ++
        [⟨.withdrawal, s.txAddr p ps 0, [BitVec.ofNat 16 (0xC000 + ((s.entry m.slot).cls.getD 0).toNat * 2048)], some m.slot,
          some p, 0, false, false⟩] } := by
  unfold examine
  simp only [placed, path, pslot, requestWithdrawal, withdrawalWord_value]
  rfl

theorem examine_passedOver {s : State} {m : MigrationItem} {rest : List MigrationItem}
    (other : (s.entry m.slot).state ≠ .placed) : examine s m rest = { s with swc.list := rest } := by
  unfold examine
  simp only
  split
  next placed _ _ => exact absurd placed other
  next => rfl

end Sys2Proof.Machine

/-! SUPPORT. The end of a migration (R121, R122, R132): the claim's release, the scan toward RADIO, the alert, the counts and
the triggers. -/

namespace Sys2Proof.Machine

/-! ### The engine's run from a state at rest -/

theorem engineStep_queue {s t : State} (work : engineStep s = some t) :
    t.ple.deferralQ.length ≤ s.ple.deferralQ.length := by
  have removed (i : Nat) : (s.ple.deferralQ.filter (fun r => decide (r.slot ≠ i))).length ≤ s.ple.deferralQ.length :=
    List.length_filter_le _ _
  unfold engineStep at work
  split at work
  · split at work
    · injection work with judged
      subst judged
      unfold scanStep
      split
      · exact Nat.le_refl _
      · simp only
        split
        · exact Nat.le_refl _
        · split
          · exact removed _
          · exact Nat.le_refl _
          · split
            · exact Nat.le_refl _
            · exact removed _
    · split at work
      · injection work with scanning
        exact scanning ▸ Nat.le_refl _
      · split at work
        · split at work
          · injection work with begun
            exact begun ▸ removed _
          · split at work
            · cases work
            · injection work with begun
              exact begun ▸ Nat.le_refl _
        · injection work with begun
          exact begun ▸ Nat.le_refl _
        · cases work
  · cases work

theorem runEngine_queue (n : Nat) (s : State) : (runEngine n s).ple.deferralQ.length ≤ s.ple.deferralQ.length := by
  induction n generalizing s with
  | zero => exact Nat.le_refl _
  | succ n ih =>
    unfold runEngine
    split
    · exact Nat.le_refl _
    · rename_i t work
      exact Nat.le_trans (ih t) (engineStep_queue work)

/-- With a re-examination marked no scan runs and no operation is present. -/
def State.markWaits (s : State) : Prop := s.ple.scan ≠ none ∨ s.ple.op ≠ none → s.ple.rexPending = false

theorem engineStep_markWaits {s t : State} (h : s.markWaits) (work : engineStep s = some t) : t.markWaits := by
  unfold engineStep at work
  split at work
  · rename_i op
    split at work
    · rename_i c scan
      have unmarked : s.ple.rexPending = false := h (.inl (by rw [scan]; nofun))
      injection work with judged
      subst judged
      unfold scanStep
      split
      · rintro (scanning | busy)
        · exact absurd rfl scanning
        · exact absurd op busy
      · simp only
        split
        · exact fun _ => unmarked
        · split
          · exact fun _ => unmarked
          · exact fun _ => unmarked
          · split <;> exact fun _ => unmarked
    · split at work
      · injection work with scanning
        exact scanning ▸ fun _ => rfl
      · rename_i rexPending
        have unmarked : s.ple.rexPending = false := Bool.eq_false_iff.mpr rexPending
        split at work
        · split at work
          · injection work with begun
            exact begun ▸ fun _ => unmarked
          · split at work
            · cases work
            · injection work with begun
              exact begun ▸ fun _ => unmarked
        · injection work with begun
          exact begun ▸ fun _ => unmarked
        · cases work
  · cases work

theorem runEngine_markWaits (n : Nat) {s : State} (h : s.markWaits) : (runEngine n s).markWaits := by
  induction n generalizing s with
  | zero => exact h
  | succ n ih =>
    unfold runEngine
    split
    · exact h
    · rename_i t work
      exact ih (engineStep_markWaits h work)

/-! ### The engine settled with fuel to spare -/

/-- With no claim and fuel above the engine's bound, the zero-time work is the engine's own, run to rest. -/
theorem runWork_settled {s : State} {n : Nat} (claim : s.ple.claim = .none) (fuel : 2 * s.ple.deferralQ.length + 8 ≤ n) :
    runWork n s = settleEngine s :=
  (runWork_engine n s claim).trans (runEngine_settled n s (Nat.le_trans (engineMeasure_le s) fuel))

theorem workFuel_covers {s t : State} (queue : t.ple.deferralQ.length ≤ s.ple.deferralQ.length) :
    2 * t.ple.deferralQ.length + 8 ≤ s.workFuel := by
  unfold State.workFuel
  omega

/-- What an engine settled with no claim is. -/
structure Settles (s t : State) : Prop where
  swc : t.swc = s.swc
  pmn : t.pmn = s.pmn
  pcf : t.pcf = s.pcf
  sdc : t.sdc = s.sdc
  claim : t.ple.claim = .none
  rest : engineStep t = none
  queue : t.ple.deferralQ.length ≤ s.ple.deferralQ.length

theorem settleEngine_settles {s : State} (claim : s.ple.claim = .none) : Settles s (settleEngine s) := by
  obtain ⟨-, swc, pmn, pcf, sdc, kept⟩ := runEngine_frame s.engineFuel s
  exact ⟨swc, pmn, pcf, sdc, kept.trans claim, settleEngine_rest s, runEngine_queue _ s⟩

theorem Settles.atRest {s t : State} (h : Settles s t) : t.atRest := (workStep_engine t h.claim).trans h.rest

theorem Settles.prompted {s t : State} (h : Settles s t) : Settles s (settleEngine t.prompted) := by
  have frame := prompted_frame t
  have swc : t.prompted.swc = t.swc := (congrArg State.swc frame).trans rfl
  have pmn : t.prompted.pmn = t.pmn := (congrArg State.pmn frame).trans rfl
  have pcf : t.prompted.pcf = t.pcf := (congrArg State.pcf frame).trans rfl
  have sdc : t.prompted.sdc = t.sdc := (congrArg State.sdc frame).trans rfl
  have claim : t.prompted.ple.claim = t.ple.claim := (congrArg (fun u : State => u.ple.claim) frame).trans rfl
  have queue : t.prompted.ple.deferralQ = t.ple.deferralQ := (congrArg (fun u : State => u.ple.deferralQ) frame).trans rfl
  have settled := settleEngine_settles (claim.trans h.claim)
  exact ⟨settled.swc.trans (swc.trans h.swc), settled.pmn.trans (pmn.trans h.pmn), settled.pcf.trans (pcf.trans h.pcf),
    settled.sdc.trans (sdc.trans h.sdc), settled.claim, settled.rest,
    Nat.le_trans settled.queue (Nat.le_trans (Nat.le_of_eq (congrArg List.length queue)) h.queue)⟩

/-- A prompt on an engine idle in ACTIVE with a service path is a scan that follows at once: no mark is left. -/
theorem prompted_unmarked {s t : State} {p : Path} (h : Settles s t) (part : s.pcf.part = .active)
    (service : s.swc.service = some p) (idle : t.ple.op = none) : (settleEngine t.prompted).ple.rexPending = false := by
  have active : t.pcf.part = .active := (congrArg Pcf.part h.pcf).trans part
  have serves : t.swc.service = some p := (congrArg Swc.service h.swc).trans service
  obtain ⟨scan, -⟩ := (engineStep_none_iff t).mp h.rest p active serves h.claim idle
  have frame := prompted_frame t
  have waits : t.prompted.markWaits := by
    rintro (scanning | busy)
    · exact absurd (((congrArg (fun u : State => u.ple.scan) frame).trans rfl).trans scan) scanning
    · exact absurd (((congrArg (fun u : State => u.ple.op) frame).trans rfl).trans idle) busy
  have ended : (settleEngine t.prompted).markWaits := runEngine_markWaits _ waits
  have settled := h.prompted
  by_cases op : (settleEngine t.prompted).ple.op = none
  · obtain ⟨-, unmarked, -⟩ := (engineStep_none_iff _).mp settled.rest p ((congrArg Pcf.part settled.pcf).trans part)
      ((congrArg Swc.service settled.swc).trans service) settled.claim op
    exact unmarked
  · exact ended (.inr op)

/-! ### The end of a migration (R132) -/

/-- The switch STEADY and the claim released. -/
def State.claimReleased (s : State) : State :=
  { s with swc.state := .steady, swc.target := none, swc.kind := none, swc.step := none, ple.claim := .none }

/-- The migration counted by its kind, after its alert. -/
def State.switched (s : State) (kind : Option MigrationKind) : State :=
  { s.alerted 0x10 with
    swc.failovers :=
      if kind = some .failover then (if s.swc.failovers < 65535 then s.swc.failovers + 1 else 65535) else s.swc.failovers
    swc.failbacks :=
      if kind = some .failback then (if s.swc.failbacks < 65535 then s.swc.failbacks + 1 else 65535) else s.swc.failbacks }

/-- The engine at work again, toward RADIO with the scan that is prompted. -/
def State.engineFreed (s : State) : State :=
  if s.swc.target.getD none = some .radio then settleEngine (settleEngine s.claimReleased).prompted
  else settleEngine s.claimReleased

theorem endMigration_switched (s : State) : endMigration s =
    let ended := s.engineFreed.switched s.swc.kind
    if ended.swc.service = none then arrivalTrigger ended
    else if ended.swc.service = some .radio then failbackTest ended else ended := by
  have freed : (if s.swc.target.getD none = some .radio then settleEngine (prompt (settleEngine s.claimReleased))
      else settleEngine s.claimReleased) = s.engineFreed := by
    rw [prompt_prompted]
    rfl
  unfold endMigration
  simp only
  rw [show ({ s with
    swc.state := .steady, swc.target := none, swc.kind := none, swc.step := none, ple.claim := .none } : State) =
    s.claimReleased from rfl, freed]
  cases s.swc.kind with
  | none => rfl
  | some kind => cases kind <;> rfl

/-- The trigger that a migration's end makes with no service is an arrival on a path that is UP, the fibre first. -/
theorem arrivalTrigger_awaited {s : State} (h : s.awaitsArrival) : arrivalTrigger s =
    if (s.pathRec .fibre).health = .up then startMigration s (some .fibre) .arrival
    else if (s.pathRec .radio).health = .up then startMigration s (some .radio) .arrival else s :=
  (if_pos h).trans (if_congr (isUp_iff s .fibre) rfl (if_congr (isUp_iff s .radio) rfl rfl))

/-- Settles O52: the list by `mem_migrationList` and `migrationList_pairwise`, its head by `examine_placed`, the end by
`endMigration_switched` with the engine settled (`runWork_settled`). -/
theorem migrationWalk : Obligations.MigrationWalk := by
  intro s part migrating op step n target stranded listed ringPlace
  have h : s.walking := ⟨part, migrating, op, step⟩
  refine ⟨fun claim scan => ⟨_, workStep_pending h claim scan, mem_migrationList s _, fun m => migrationList_seq,
    migrationList_pairwise s _⟩, fun m rest claim list => ?_, fun claim list => ?_⟩
  · rw [workStep_head h claim list]
    exact ⟨fun p ps placed path pslot => congrArg some (examine_placed placed path pslot),
      fun other => congrArg some (examine_passedOver other)⟩
  · intro released chosen scanned ended
    have first : chosen = settleEngine released := runWork_settled rfl (workFuel_covers (s := s) (Nat.le_refl _))
    have chosenSettles : Settles released chosen := first ▸ settleEngine_settles rfl
    have second : runWork s.workFuel chosen.prompted = settleEngine chosen.prompted := by
      have frame := prompted_frame chosen
      have free : chosen.prompted.ple.claim = .none :=
        ((congrArg (fun u : State => u.ple.claim) frame).trans rfl).trans chosenSettles.claim
      have queue : chosen.prompted.ple.deferralQ = chosen.ple.deferralQ :=
        (congrArg (fun u : State => u.ple.deferralQ) frame).trans rfl
      exact runWork_settled free (workFuel_covers (queue ▸ chosenSettles.queue))
    have scans : scanned = if target = some .radio then settleEngine chosen.prompted else chosen := by
      unfold scanned
      rw [second]
    have scannedSettles : Settles released scanned := by
      rw [scans]
      split
      · exact chosenSettles.prompted
      · exact chosenSettles
    have freed : scanned = s.engineFreed := by
      rw [scans, first]
      rfl
    refine ⟨chosenSettles.atRest, scannedSettles.atRest, scannedSettles.claim, scannedSettles.swc, scannedSettles.pcf,
      scannedSettles.sdc, scannedSettles.pmn, fun radio idle service => ?_, ?_⟩
    · rw [scans, if_pos radio]
      exact prompted_unmarked chosenSettles part service idle
    · have counted : s.engineFreed.switched s.swc.kind = ended := by
        have failovers : scanned.swc.failovers = s.swc.failovers :=
          (congrArg Swc.failovers scannedSettles.swc).trans rfl
        have failbacks : scanned.swc.failbacks = s.swc.failbacks :=
          (congrArg Swc.failbacks scannedSettles.swc).trans rfl
        unfold State.switched ended
        rw [← freed, failovers, failbacks]
      have service : ended.swc.service = s.swc.service := (congrArg Swc.service scannedSettles.swc).trans rfl
      have records (p : Path) : ended.pathRec p = s.pathRec p := congrArg (fun m : Pmn => m.recs.get p) scannedSettles.pmn
      rw [workStep_end h claim list, endMigration_switched, counted]
      simp only [service]
      by_cases none : s.swc.service = none
      · have awaits : ended.awaitsArrival := ⟨(congrArg Pcf.part scannedSettles.pcf).trans part, service.trans none,
          (congrArg Swc.state scannedSettles.swc).trans rfl⟩
        rw [if_pos none, if_pos none, arrivalTrigger_awaited awaits, records, records]
      · rw [if_neg none, if_neg none]

end Sys2Proof.Machine
